-- ==== Sys2Proof/Word.lean ====
section
/-!
DEFINITION. The word types of the OXV-P1152 model and the index types of its parts.
Bit 0 is the least significant bit of every value (R9).
-/
namespace Sys2Proof

/-- One byte of memory. -/
abbrev Byte := BitVec 8
/-- A 32-bit register or counter. -/
abbrev W32 := BitVec 32
/-- A 64-bit scalar register. -/
abbrev W64 := BitVec 64
/-- A physical tile index p = row * 32 + col (R17). -/
abbrev TileId := Fin 1152
/-- An optical plane, which is also a fabric port (R20, R283). -/
abbrev PlaneId := Fin 16
/-- A lane pair of a plane, or a colour (R283, R285). -/
abbrev PairId := Fin 32
/-- A memory port, channel and DIMM socket (R253). -/
abbrev PortId := Fin 64
/-- An Ethernet port (R409). -/
abbrev EthId := Fin 5
/-- A read or write stream slot of a tile (R214). -/
abbrev SlotId := Fin 8

/-- Add to a counter that saturates at 0xFFFF_FFFF. -/
def satAdd32 (c : W32) (n : Nat) : W32 :=
  BitVec.ofNat 32 (min (c.toNat + n) 0xFFFFFFFF)

end Sys2Proof
end

