-- ==== Sys2Proof/Syntax.lean ====
section
/-!
DEFINITION. The commands of the OXV-P1152 model: one constructor of `Instr` for each row of the table of
operations and events. A row that is a tile instruction carries the tile `p` that issues it, the fields of
its layout line in order, and its reserved bits `rsv` (R10, R154). A row that is an event carries what the
outside or the physics supplies: a measurement, a received frame, a pass or a failure.
-/
namespace Sys2Proof

/-- What bring-up finds (R29 to R31, R254, R444): the sampled straps, the channels that fail training, the tiles
that fail self-test, the routers that fail their own test, and the links that fail (both endpoints). `dimms` names the sockets
that do not hold a DIMM of the module's own terms (R450): an empty one, or the capacity in GiB and the rated MT/s found. -/
structure BringUp where
  slotId : BitVec 6
  trainFail : List PortId
  dimms : List (PortId × Option (Nat × Nat))
  selfTestFail : List TileId
  routerFail : List TileId
  linkFail : List (TileId × TileId)
  deriving DecidableEq, Repr

/-- The measurements of one 10 µs limiter interval (R416, R425, R433) in the units of the PWR registers: V_in in
10 mV, I_in in 0.1 A, P_in in W, coolant inlets in 0.125 °C (signed), flows in 0.1 L/min, block powers in W. -/
structure PowerSample where
  vin : BitVec 16
  iin : BitVec 16
  pin : BitVec 16
  mainInlet : BitVec 16
  mainFlow : BitVec 16
  optInlet : BitVec 16
  optFlow : BitVec 16
  blocks : Vector (BitVec 16) 5
  deriving DecidableEq, Repr

/-- A router output: the four neighbours or the tile itself (R37). -/
inductive Dir where
  | east | west | north | south | localPort
  deriving DecidableEq, Repr

/-- What an edge link of the panel joins (R20): a memory port, a fabric port or the host complex. -/
inductive Attachment where
  | memory (i : PortId)
  | fabric (q : PlaneId)
  | host
  deriving DecidableEq, Repr

/-- Where a mesh packet goes (R20, R37, R41): one tile, the edge attachment at a router's outward port, the active tiles of
columns `cLo` to `cHi` of a row, or the active tiles of rows `rLo` to `rHi` of a column. -/
inductive PacketDest where
  | unicast (p : TileId)
  | attachment (p : TileId) (side : Dir)
  | row (r cLo cHi : Nat)
  | column (c rLo rHi : Nat)
  deriving DecidableEq, Repr

/-- A mesh packet: its source, its destination, 1 to 16 flits (R36), a label, its virtual channel, and whether it makes a
Y detour and must go on in Y to its row before it steps back (R38). -/
structure Packet where
  src : TileId
  dest : PacketDest
  flits : Nat
  label : Nat
  vc1 : Bool
  yDetour : Bool
  deriving DecidableEq, Repr

/-- What ECC finds on a 64-byte access (R257, R258). -/
inductive Ecc where
  | clean
  | corrected (rank : BitVec 4) (dev : BitVec 4)
  | uncorrectable
  deriving DecidableEq, Repr

/-- Who makes a DDR request (R258): a tile, or a port unit, fabric port or the host complex. -/
inductive Requester where
  | tile (p : TileId)
  | other
  deriving DecidableEq, Repr

/-- What a collective's record says of its kind and sizes (R335): KIND, ETYPE and LEN. -/
structure CollShape where
  kind : Nat
  etype : Nat
  len : Nat
  deriving DecidableEq, Repr

/-- A transport frame: header bytes 0x10 to 0x3F (R332) and the payload. `shape` tells the receiver the sender's kind and sizes:
R335 has the receiver find a difference, and R332 gives no field for them (DESIGN CHOICE, log 110). -/
structure Frame where
  tag : BitVec 16
  kind : BitVec 8
  via : Bool
  src : BitVec 8
  dst : BitVec 8
  group : BitVec 8
  nblk : BitVec 8
  dstid : BitVec 64
  coll : BitVec 32
  fidx : BitVec 32
  arg : BitVec 64
  nfmask : BitVec 128
  payload : List Byte
  shape : Option CollShape := none
  deriving DecidableEq, Repr

/-- Whose message a GRANT, SKIP, END or ABORT is (R332, R334): TAG, SRC, DST and FIDX of its frame, and what its sender's record says. -/
structure Origin where
  tag : BitVec 16
  src : BitVec 8
  dst : BitVec 8
  fidx : BitVec 32
  shape : Option CollShape := none
  deriving DecidableEq, Repr

/-- The link layer's part of a frame header (R311). -/
structure LinkHeader where
  seq : BitVec 16
  ack : BitVec 16
  nak : Bool
  replay : Bool
  credit : BitVec 8
  margin : BitVec 8
  deriving DecidableEq, Repr

/-- A received frame's link header, and how many bytes before the end of the lane data received so far the frame began (R293, R310). -/
structure RxHeader extends LinkHeader where
  ago : Nat
  deriving DecidableEq, Repr

/-- A received codeword (R291 to R293): whether the decoder could correct it, how many symbols it corrected, and
its header fields. -/
structure Codeword where
  correctable : Bool
  corrected : Nat
  fso : BitVec 10
  kind : BitVec 2
  rxState : BitVec 2
  colour : BitVec 5
  deriving DecidableEq, Repr

/-- A JOIN message (R326): the sender's fingerprint, its plan's SEQ and CHECK, its JOBTAG and its present mask. -/
structure JoinMsg where
  fpr : List Byte
  seq : BitVec 32
  check : BitVec 64
  jobtag : BitVec 16
  present : BitVec 32
  deriving DecidableEq, Repr

/-- A CONFIRM message (R326): as a JOIN, with the sender's J. -/
structure ConfirmMsg where
  fpr : List Byte
  seq : BitVec 32
  check : BitVec 64
  jobtag : BitVec 16
  j : BitVec 32
  deriving DecidableEq, Repr

/-- A COMMIT message with its body, from the member of job rank `src` (R365). -/
structure CommitMsg where
  src : BitVec 8
  t : BitVec 32
  a : BitVec 32
  k : BitVec 32
  nf : Bool
  secureReq : Bool
  digest : Bool
  newSeq : BitVec 32
  body : List Byte
  deriving DecidableEq, Repr

/-- A stripe of an amber image sent to a holder (R378, R379). -/
structure StripeMsg where
  owner : BitVec 8
  seq : BitVec 32
  index : Nat
  crc : BitVec 64
  bytes : List Byte
  deriving DecidableEq, Repr

/-- SEAL of an image: its SEQ and its number of stripes (R380). -/
structure SealMsg where
  seq : BitVec 32
  nstripe : BitVec 32
  deriving DecidableEq, Repr

/-- What a holder answers to a stripe (R379, R381): stored, its CRC failed, or no room for it. -/
inductive StripeAnswer where
  | stored | crcBad | noRoom
  deriving DecidableEq, Repr

/-- One copy in an inventory: slot SEQ, the plan rank of the owner, the stripe index, and what the slot's image
header says: t, NMEMB and IMAGELEN (R376, R383, R384). -/
structure InvCopy where
  seq : BitVec 32
  rank : Nat
  stripe : Nat
  t : BitVec 32
  nmemb : Nat
  imageLen : Nat
  deriving DecidableEq, Repr

/-- An INV message from job rank `src`: the sealed copies it holds that it received since its last reset. -/
structure InvMsg where
  src : BitVec 8
  copies : List InvCopy
  deriving DecidableEq, Repr

/-- The state of a TCP connection attempt to the SPDM responder (R408). -/
inductive ConnEvent where
  | opened
  | closed
  deriving DecidableEq, Repr

/-- The phase of one rank's retraining (R259). -/
inductive TrainPhase where
  | begins
  | ends
  deriving DecidableEq, Repr

/-- The array counters that a read clears (offsets 0x0404 to 0x0410). -/
inductive ArrCounter where
  | freeze | sat | nannum | nonfin
  deriving DecidableEq, Repr

/-- The sequencer counters that a read clears (offsets 0x0054 to 0x005C). -/
inductive SeqCounter where
  | wait | qfull | enter
  deriving DecidableEq, Repr

/-- The vector counters that a read clears (offsets 0x0604 to 0x061C). -/
inductive VecCounter where
  | invalid | divzero | sat | nannum | nonfin | stall | genWrap
  deriving DecidableEq, Repr

/-- The stream counters that a read clears (offsets 0x0708 and 0x070C). -/
inductive StrmCounter where
  | rearm | pairwait
  deriving DecidableEq, Repr

/-- The routing-front counters that a read clears (offsets 0x0804 and 0x0808). -/
inductive RtfCounter where
  | tokens | nonfin
  deriving DecidableEq, Repr

/-- The tile power counters that a read clears (offsets 0x0904 and 0x0908). -/
inductive ThermCounter where
  | hold | stretch
  deriving DecidableEq, Repr

/-- The RTU counters that a read clears (offsets 0x0008 to 0x0014). -/
inductive RtuCounter where
  | choices | nulls | skips | evcalls
  deriving DecidableEq, Repr

/-- The memory-port counters that a read clears (offsets 0x000C, 0x0014 and 0x0028). -/
inductive MemCounter where
  | ce | ue | mergeErr
  deriving DecidableEq, Repr

/-- The gather-pool counters that a read clears (offsets 0x0104 to 0x010C). -/
inductive GplCounter where
  | rows | oor | bags
  deriving DecidableEq, Repr

/-- The update-engine counters that a read clears (offsets 0x0204, 0x0208, 0x0210 to 0x0218). -/
inductive UpdCounter where
  | units | catchup | nonfin | restored | stamperr
  deriving DecidableEq, Repr

/-- The pair counters that a read clears, of the pair selected in OPT_PAIR_SEL (offsets 0x002C to 0x0038, 0x0144). -/
inductive OptCounter where
  | fecCorr | fecUnc | crcErr | replayed | holds
  deriving DecidableEq, Repr

/-- The fabric counters that a read clears (offsets 0x0020 to 0x0028). -/
inductive FabCounter where
  | discard | noroute | resent
  deriving DecidableEq, Repr

/-- The power counters that a read clears (offsets 0x004C to 0x0054). -/
inductive PwrCounter where
  | stretch | throttle | warnCount
  deriving DecidableEq, Repr

/-- The Ethernet counters that a read clears (offsets 0x0020 to 0x0038). -/
inductive EthCounter where
  | rxFrames | rxFcs | rxNobuf | txFrames | fecCorr | fecUnc | sigLost
  deriving DecidableEq, Repr

/-- The commands, in the order of the table. -/
inductive Instr where
  -- supply, reset, power and temperature
  | pwrEnAssert (vin : BitVec 16) (offMs : Nat)
  | pgAssert (b : BringUp)
  | pwrEnDeassert
  | moduleReset
  | resetRelease (b : BringUp)
  | railOutOfRegulation
  | supplyLoss
  | vinLow (vin : BitVec 16)
  | vinHigh (vin : BitVec 16)
  | iinWarn (iin : BitVec 16)
  | undervoltageFault (vin : BitVec 16)
  | overvoltageFault (vin : BitVec 16)
  | overcurrentFault (iin : BitVec 16)
  | shortCircuitFault (iin : BitVec 16)
  | limiterUpdate (m : PowerSample)
  | thermalSample (p : TileId) (tj : BitVec 16)
  | stretchEvent (p : TileId) (droopPermille : Nat)
  | clockFault (p : TileId)
  | moduleThermalShutdown (optical : Bool)
  | dimmSensorRead (i : PortId) (temp : BitVec 16)
  -- boot, mesh and service tree
  | firmwareEntry
  | recoveryWrite (image : List Byte)
  | meshOpen (writeOk : Bool)
  | meshPruneReq (v : W32)
  | fieldMapWriteDone (ok : Bool)
  | fieldMapRetry (ok : Bool)
  | meshPacket (p : TileId) (arrival : Option (Dir × Packet)) (out : Dir) (ready : Bool)
  | serviceTreeTimeout (target : Option TileId) (isWrite : Bool)
  | meshSvcErrClear (v : W32)
  -- launch
  | start (cancel : Bool)
  | cancel (start : Bool)
  | launchChecks
  | launchIdle
  | hardwareFault (p : Option TileId) (cause : Byte)
  | hstTallyWrite (n : Fin 64) (v : W32)
  | hostTallyAdd (src : TileId)
  | tleSignalWrite (p : TileId) (v : W32)
  | hstRevokeGo (v : W32)
  | hstLaunchStatusClear (v : W32)
  | hstRevokeStatusClear (v : W32)
  -- scalar and control instructions
  | nop (p : TileId) (rsv : BitVec 58)
  | alu (p : TileId) (sd sa sb fn : BitVec 5) (rsv : BitVec 38)
  | alui (p : TileId) (sd sa fn : BitVec 5) (rsv : BitVec 11) (imm : BitVec 32)
  | li (p : TileId) (sd : BitVec 5) (pos : BitVec 2) (rsv : BitVec 19) (imm : BitVec 32)
  | ld (p : TileId) (sd sa : BitVec 5) (size : BitVec 2) (sx sp : Bool) (rsv : BitVec 12) (off : BitVec 32)
  | st (p : TileId) (ss sa : BitVec 5) (size : BitVec 2) (rsv1 : BitVec 1) (sp : Bool) (rsv : BitVec 12)
      (off : BitVec 32)
  | br (p : TileId) (sa sb : BitVec 5) (cond : BitVec 3) (rsv : BitVec 13) (off : BitVec 32)
  | jal (p : TileId) (sd : BitVec 5) (rsv : BitVec 21) (off : BitVec 32)
  | jr (p : TileId) (sd sa : BitVec 5) (rsv : BitVec 48)
  | mark (p : TileId) (en : Bool) (rsv : BitVec 57)
  | getv (p : TileId) (sd sel : BitVec 5) (rsv : BitVec 48)
  | fence (p : TileId) (qmask : BitVec 6) (rsv : BitVec 52)
  | halt (p : TileId) (rsv : BitVec 58)
  | tset (p : TileId) (t : BitVec 6) (rsv : BitVec 20) (value : BitVec 32)
  | signal (p : TileId) (kind : BitVec 2) (rel : Bool) (sa : BitVec 5) (t : BitVec 6) (rsv : BitVec 12)
      (value : BitVec 32)
  | signalRelease (p : TileId)
  | tallyAdd (src dst : TileId)
  | memoryCounterAdd (src : TileId)
  | waitt (p : TileId) (t : BitVec 6) (mk sv : Bool) (sa : BitVec 5) (rsv : BitVec 13) (value : BitVec 32)
  | claim (p : TileId) (sd sa : BitVec 5) (list : BitVec 12) (rsv : BitVec 1) (off : BitVec 32)
  | claim2 (p : TileId) (sd sa : BitVec 5) (list : BitVec 12) (rsv : BitVec 1) (off : BitVec 32)
  | claimArrival (p : TileId) (k : Nat)
  | claimReply (p : TileId) (k : Nat)
  | revoke (p : TileId) (sd sa : BitVec 5) (list : BitVec 12) (rsv : BitVec 1) (off : BitVec 32)
  | lset (p : TileId) (sd sa : BitVec 5) (list : BitVec 12) (rsv : BitVec 1) (off : BitVec 32)
  | enterRequest (p : TileId)
  | enterReply (p : TileId)
  | lli (p : TileId) (sd : BitVec 5) (rel : Bool) (rsv : BitVec 14) (value : BitVec 32) (imm : BitVec 64)
  | ljmp (p : TileId) (sd : BitVec 5) (rel : Bool) (rsv : BitVec 14) (value : BitVec 32) (imm : BitVec 64)
  | lsignal (p : TileId) (sd : BitVec 5) (rel : Bool) (rsv : BitVec 14) (value : BitVec 32) (imm : BitVec 64)
  -- arrays
  | xload (p : TileId) (dx : BitVec 4) (rs : BitVec 3) (sa : BitVec 5) (klen : BitVec 10) (nlen : BitVec 6)
      (rsv : BitVec 30)
  | mmul (p : TileId) (dw : BitVec 4) (rs : BitVec 3) (dy : BitVec 4) (ws : BitVec 3) (sa sb : BitVec 5)
      (pass : BitVec 2) (dc : BitVec 4) (rc : BitVec 3) (rsv : BitVec 25)
  | dcfg (p : TileId) (sx : BitVec 5) (rsv : BitVec 53)
  | acfg (p : TileId) (sx : BitVec 5) (rsv : BitVec 53)
  | dstat (p : TileId) (sx : BitVec 5) (dst clr src : Bool) (rsv : BitVec 50)
  | statMerge (p : TileId)
  | aload (p : TileId) (da : BitVec 4) (rs : BitVec 3) (sa : BitVec 5) (ilen jlen : BitVec 6) (rsv : BitVec 34)
  | amul (p : TileId) (dx : BitVec 4) (rs : BitVec 3) (dout : BitVec 4) (ws : BitVec 3) (sa sb : BitVec 5)
      (pass : BitVec 2) (dc : BitVec 4) (rc : BitVec 3) (rsv : BitVec 25)
  | xloadt (p : TileId) (dx : BitVec 4) (rs : BitVec 3) (sa : BitVec 5) (klen : BitVec 10) (nlen : BitVec 6)
      (rsv : BitVec 30)
  | dxmul (p : TileId) (dw : BitVec 4) (rs : BitVec 3) (dy : BitVec 4) (ws : BitVec 3) (sa sb : BitVec 5)
      (pass : BitVec 2) (dc : BitVec 4) (rc : BitVec 3) (dmode : Bool) (mpid : BitVec 4) (rsv : BitVec 20)
  | dwmul (p : TileId) (dd : BitVec 4) (rs : BitVec 3) (dg : BitVec 4) (ws : BitVec 3) (sa sb : BitVec 5)
      (pass : BitVec 2) (dc : BitVec 4) (rc : BitVec 3) (gs : Bool) (rsv : BitVec 24)
  | lfmt (p : TileId) (sd sl : BitVec 5) (rsv : BitVec 48)
  -- vector engine
  | vop (p : TileId) (sd sa sb : BitVec 5) (fn : BitVec 6) (ty : BitVec 5) (rnd : BitVec 2) (cnt : BitVec 12)
      (rsv : BitVec 18)
  | vter (p : TileId) (sd sa sb sc : BitVec 5) (fn : BitVec 3) (ty : BitVec 5) (rnd : BitVec 2)
      (cnt : BitVec 12) (rsv : BitVec 16)
  | vcvt (p : TileId) (sd sa sc ts td : BitVec 5) (rnd : BitVec 2) (cnt : BitVec 12) (rsv : BitVec 19)
  | vred (p : TileId) (sd sa sb sl : BitVec 5) (fn : BitVec 3) (ty : BitVec 5) (cnt : BitVec 12)
      (rsv : BitVec 18)
  | vmp (p : TileId) (sd sa sb sc : BitVec 5) (mpid : BitVec 4) (ti td : BitVec 5) (rnd : BitVec 2)
      (cnt : BitVec 12) (rsv : BitVec 10)
  | vrand (p : TileId) (sd sb : BitVec 5) (mode : BitVec 2) (cnt : BitVec 12) (rsv : BitVec 34)
  | seek (p : TileId) (sa : BitVec 5) (sub : BitVec 8) (rsv : BitVec 42)
  | skey (p : TileId) (sa : BitVec 5) (sub : BitVec 8) (rsv : BitVec 42)
  | gsave (p : TileId) (sa : BitVec 5) (sub : BitVec 8) (rsv : BitVec 42)
  | grest (p : TileId) (sa : BitVec 5) (sub : BitVec 8) (rsv : BitVec 42)
  | genSkip (p : TileId) (sa : BitVec 5) (sub : BitVec 8) (rsv : BitVec 42)
  -- descriptors and streams
  | dmake (p : TileId) (d : BitVec 4) (sa : BitVec 5) (rsv : BitVec 49)
  | dbase (p : TileId) (d : BitVec 4) (sa : BitVec 5) (rsv : BitVec 49)
  | swaph (p : TileId) (d : BitVec 4) (rsv : BitVec 54)
  | sarm (p : TileId) (ds : BitVec 4) (rs : BitVec 3) (dd : BitVec 4) (sa sb sc : BitVec 5) (te : Bool)
      (t : BitVec 6) (rsv : BitVec 25)
  | copy (p : TileId) (ds : BitVec 4) (rs : BitVec 3) (dd : BitVec 4) (ws : BitVec 3) (sa sb sc : BitVec 5)
      (tr : Bool) (rsv : BitVec 28)
  | streamSlotComplete (p : TileId) (slot : SlotId)
  -- routing
  | rsel (p : TileId) (ds : BitVec 4) (rs : BitVec 3) (sk sa sc : BitVec 5) (rsv : BitVec 36)
  | rassign (p : TileId) (sc : BitVec 5) (ev : Bool) (t : BitVec 6) (rsv : BitVec 46)
  | assignCall
  | gather (p : TileId) (ds : BitVec 4) (rs : BitVec 3) (dd : BitVec 4) (ws : BitVec 3) (da : BitVec 4)
      (ra : BitVec 3) (sc sa sb : BitVec 5) (gw : Bool) (rnd : BitVec 2) (rsv : BitVec 16)
  | scatter (p : TileId) (ds : BitVec 4) (rs : BitVec 3) (dd : BitVec 4) (ws : BitVec 3) (da : BitVec 4)
      (ra : BitVec 3) (sc sa sb : BitVec 5) (gw : Bool) (rnd : BitVec 2) (rsv : BitVec 16)
  | combine (p : TileId) (ds : BitVec 4) (rs : BitVec 3) (dd : BitVec 4) (ws : BitVec 3) (da : BitVec 4)
      (ra : BitVec 3) (sc sa sb : BitVec 5) (gw : Bool) (rnd : BitVec 2) (rsv : BitVec 16)
  | ggrad (p : TileId) (ds : BitVec 4) (rs : BitVec 3) (dd : BitVec 4) (ws : BitVec 3) (da : BitVec 4)
      (ra : BitVec 3) (sc sa sb : BitVec 5) (gw : Bool) (rnd : BitVec 2) (rsv : BitVec 16)
  -- memory ports, gather-pool and update engines
  | ddrRead (addr : BitVec 48) (ecc : Ecc) (req : Requester)
  | ddrWrite (addr : BitVec 48) (data : Vector Byte 64) (mask : BitVec 64)
  | patrolScrub (addr : BitVec 48) (ecc : Ecc)
  | rankRetrain (i : PortId) (rank : BitVec 3) (phase : TrainPhase)
  | atom (p : TileId) (fn : BitVec 3) (sd sa sb sc : BitVec 5) (rel : Bool) (rsv : BitVec 34)
  | gpool (p : TileId) (fn : BitVec 2) (dt dd : BitVec 4) (sb : BitVec 5) (rnd : BitVec 2) (te : Bool)
      (t : BitVec 6) (rsv : BitVec 34)
  | gsrow (p : TileId) (fn : BitVec 2) (dg dr : BitVec 4) (sb so : BitVec 5) (rnd : BitVec 2) (te : Bool)
      (t : BitVec 6) (rsv : BitVec 29)
  | updt (p : TileId) (grp : BitVec 8) (sa sb : BitVec 5) (src : BitVec 2) (te : Bool) (t : BitVec 6)
      (rsv : BitVec 31)
  | unitUpdate (i : PortId)
  -- light path
  | ringLockUpdate (q : PlaneId) (c : PairId) (errTx errRx loopTx loopRx slew : BitVec 16) (dieTemp : BitVec 16)
  | tuneFeedforward (q : PlaneId) (powers : List (TileId × Nat))
  | codeword (q : PlaneId) (c : PairId) (w : Codeword)
  | holdExit (q : PlaneId) (c : PairId)
  | marginTestDone (q : PlaneId) (c : PairId) (errors : Nat)
  | pairFail (q : PlaneId) (c : PairId)
  | pairRetry (q : PlaneId) (c : PairId)
  | marginEstimate (est : List (PlaneId × PairId × BitVec 8))
  | tapPowerDrop (c : PairId) (power : BitVec 16)
  | spareLocked
  | combFail (combB : Bool)
  | forceWarm
  | forceSwitch
  | dataFrame (q : PlaneId) (c : PairId) (h : RxHeader) (crcOk : Bool) (f : Frame)
  | controlFrame (q : PlaneId) (c : PairId) (h : RxHeader) (crcOk : Bool)
  | replayTimeout (q : PlaneId) (c : PairId)
  | controlFrameDue (q : PlaneId) (c : PairId)
  | optRun (q : PlaneId) (v : W32)
  | optEventClear (q : PlaneId) (v : W32)
  | cmbEventClear (v : W32)
  -- fabric
  | discoverySend (q : PlaneId) (c : PairId)
  | discoveryFrame (q : PlaneId) (c : PairId) (payload : List Byte)
  | join (m : JoinMsg)
  | confirm (m : ConfirmMsg)
  | joinTimeout
  | transportData (f : Frame)
  | graftRelay (q : PlaneId) (c : PairId) (f : Frame)
  | noroute (relayFpr : List Byte) (f : Frame)
  | grant (src : Origin) (group : BitVec 8) (coll : BitVec 32) (bound : BitVec 64)
  | skipMessage (src : Origin) (group : BitVec 8) (coll : BitVec 32) (b0 nb : BitVec 64)
  | end_ (src : Origin) (group : BitVec 8) (coll : BitVec 32)
  | abort (src : Origin) (endCode : BitVec 3)
  | rscat (p : TileId) (sd sa : BitVec 5) (te : Bool) (t : BitVec 6) (rsv : BitVec 41)
  | agather (p : TileId) (sd sa : BitVec 5) (te : Bool) (t : BitVec 6) (rsv : BitVec 41)
  | a2a (p : TileId) (sd sa : BitVec 5) (te : Bool) (t : BitVec 6) (rsv : BitVec 41)
  | bcast (p : TileId) (sd sa : BitVec 5) (te : Bool) (t : BitVec 6) (rsv : BitVec 41)
  | srow (p : TileId) (sd sa : BitVec 5) (te : Bool) (t : BitVec 6) (rsv : BitVec 41)
  | barrier (p : TileId) (sd sa : BitVec 5) (te : Bool) (t : BitVec 6) (rsv : BitVec 41)
  | put (p : TileId) (sd sa : BitVec 5) (te : Bool) (t : BitVec 6) (rsv : BitVec 41)
  | get (p : TileId) (sd sa : BitVec 5) (te : Bool) (t : BitVec 6) (rsv : BitVec 41)
  | fsendArm (p : TileId) (ws : BitVec 3) (sa sb : BitVec 5) (rsv : BitVec 43)
  | fsendSkip (p : TileId) (ws : BitVec 3) (sa sb : BitVec 5) (rsv : BitVec 43)
  | blockReduce (group : BitVec 8) (coll : BitVec 32) (block : Nat)
  | rowReduce (group : BitVec 8) (coll : BitVec 32) (row : Nat)
  -- steps, commit, amber sets
  | arrival
  | commitMessage (m : CommitMsg)
  | commitTimeout
  | stepCommit
  | stripe (m : StripeMsg)
  | stripeAck (holder : BitVec 8) (seq : BitVec 32) (index : Nat) (answer : StripeAnswer)
  | seal (owner : BitVec 8) (m : SealMsg)
  | healthEval
  | secureNow
  | hmnRun (v : W32)
  | hmnEventClear (v : W32)
  | inv (m : InvMsg)
  | restoreFetchDone (image : List Byte) (spare : List (Nat × List Byte))
  -- host complex
  | flashGo
  | eraseOnly
  | flashDone
  | hstFlashStatusClear (v : W32)
  | maintenanceCommand (v : W32)
  | enrol (v : W32)
  | measure (v : W32)
  | svnCommit (v : W32)
  | secEventClear (v : W32)
  | getVersion
  | getCapabilities
  | negotiateAlgorithms (baseAsym baseHash : W32)
  | getDigests
  | getCertificate (slot : Byte) (offset length : Nat)
  | challenge (slot : Byte) (nonce : List Byte)
  | getMeasurements (index : Byte) (signed : Bool) (nonce : List Byte)
  | unsupportedRequest (code : Byte)
  | ethRxFrame (p : EthId) (frame : List Byte) (fcsOk : Bool) (fecCorr fecUnc : Nat)
  | ringTailWrite (p : EthId) (ring : Fin 9) (v : W32)
  | ethTxDescriptor (p : EthId)
  | ethRun (p : EthId) (v : W32)
  | ringSizeWrite (p : EthId) (ring : Fin 9) (v : W32)
  | ethPEventClear (p : EthId) (v : W32)
  | cageResetRelease (p : EthId)
  | memUeAddrClear (i : PortId) (v : W32)
  | rtuErrClear (v : W32)
  | pwrEventClear (v : W32)
  | pwrCapWrite (v : W32)
  -- PMBus
  | operation (w : Option Byte)
  | clearFaults
  | capability
  | smbalertMask (code : Byte) (w : Option Byte)
  | vinOvWarnLimit (w : Option (BitVec 16))
  | vinUvWarnLimit (w : Option (BitVec 16))
  | iinOcWarnLimit (w : Option (BitVec 16))
  | statusByte
  | statusWord
  | statusInput
  | statusTemperature
  | statusMfrSpecific
  | readVin
  | readIin
  | readTemperature1
  | readTemperature2
  | readTemperature3
  | readPin
  | pmbusRevision
  | mfrId
  | mfrModel
  | mfrRevision
  | mfrPowerCap (w : Option (BitVec 16))
  | mfrReadFlowMain
  | mfrReadFlowOpt
  | pmbusUnsupported (code : Byte) (isWrite : Bool)
  | setdasa (addr : BitVec 7)
  -- counters that a read clears
  | tleArrCounterRead (p : TileId) (c : ArrCounter)
  | tleTurnWaitRead (p : TileId)
  | tleSeqCounterRead (p : TileId) (c : SeqCounter)
  | tleVecCounterRead (p : TileId) (c : VecCounter)
  | tleStrmCounterRead (p : TileId) (c : StrmCounter)
  | tleRtfCounterRead (p : TileId) (c : RtfCounter)
  | tleThermCounterRead (p : TileId) (c : ThermCounter)
  | rtuCounterRead (c : RtuCounter)
  | memCounterRead (i : PortId) (c : MemCounter)
  | gplCounterRead (i : PortId) (c : GplCounter)
  | updCounterRead (i : PortId) (c : UpdCounter)
  | optCounterRead (q : PlaneId) (c : OptCounter)
  | fabCounterRead (c : FabCounter)
  | pwrCounterRead (c : PwrCounter)
  | ethCounterRead (p : EthId) (c : EthCounter)
  -- everything else
  | registerWrite (addr : BitVec 48) (v : W32)
  | standbySupply (slotId : BitVec 6)
  | unassignedOpcode (p : TileId) (word : BitVec 64)
  | failedAccess (addr : BitVec 48) (isWrite : Bool)
  | combWorking (aOk bOk : Bool) (power : Vector (BitVec 16) 32)
  | ringAcquired (seeds : List (PlaneId × PairId × Option (BitVec 16) × Option (BitVec 16)))
  | peerLight (q : PlaneId) (c : PairId) (present : Bool)
  | noLightTimeout (q : PlaneId) (c : PairId)
  | mapReady
  | linkChange (p : EthId) (up : Bool)
  | pluggablePresence (p : EthId) (present : Bool) (powerDeciwatt : Nat)
  | spdmConnection (e : ConnEvent)
  deriving DecidableEq, Repr

end Sys2Proof
end

