-- ==== Sys2Proof/Decode.lean ====
section
/-!
DEFINITION. Commands by word. The table of commands gives no row any bits: the block takes commands, not words, so no word spells
one.
-/
namespace Sys2Proof

/-- The command that a word spells by the table's bits: the table gives none. (DESIGN CHOICE, log 8). -/
def decodeTableWord (_nbits _w : Nat) : Option Instr := none

end Sys2Proof
end

