-- ==== Sys2Proof/Config.lean ====
section
/-!
DEFINITION. What one part fixes and the spec does not give: uninterpreted constants (free values).
No constant of this file has a body that a proof could use; each is named in the assumption log.
-/
namespace Sys2Proof.Config

/-- A fresh 64-bit free value; applied to the counter `freeCtr` of the state (log 3). -/
opaque freeValue : Nat → W64
/-- Byte `i` of the free byte string number `k`: bytes the spec leaves unpredictable but confined (R15).
(DESIGN CHOICE, log 3). -/
opaque freeByte (k i : Nat) : Byte
/-- What picks the value of a built-in curve of the drain among those within the bound of R98: curve code and binary64 argument to
binary64 (DESIGN CHOICE, log 5). -/
opaque curve (code : BitVec 5) (x : BitVec 64) : BitVec 64
/-- What picks the value of a transcendental vector function among those within the bound of R182: function code and binary64
argument to binary64 (DESIGN CHOICE, log 5). -/
opaque transcendental (fn : BitVec 6) (x : BitVec 64) : BitVec 64
/-- A feed-forward offset that falls between two units of the heater register (R295 states no rounding): the whole
number of units driven. (DESIGN CHOICE, log 59). -/
opaque heaterRound (num : Int) (den : Nat) : Int
/-- The side of a valid detour entry (R38 gives none): router, direction code 0 east 1 west 2 north 3 south.
(DESIGN CHOICE, log 17). -/
opaque detourSide (prune p dir : Nat) : Bool
/-- Where the unheated modulator ring of a lane lies in the optical die, in units of 0.1 GHz (R302 corrects heater values for their
colours, and no rule gives the rings' own frequencies). (DESIGN CHOICE, log 59). -/
opaque ringRest (plane colour : Nat) : Int
/-- The heater point of a line where the locked rings of its bus give several (R302 states no rule to combine them).
(DESIGN CHOICE, log 59). -/
opaque busPoint (points : List Int) : Int
/-- What gives the private key of the device identity key (R402), generated inside the part. (DESIGN CHOICE, log 62).
(DESIGN CHOICE, log 94). -/
opaque identitySecret : Nat
/-- The per-message secret of signature number `k` (FIPS 186-5). (DESIGN CHOICE, log 94). -/
opaque nonce (k : Nat) : Nat
/-- Byte `i` of the wrapped identity key as the flash holds it (R396, R402): its form is not given. (DESIGN CHOICE, log 62). -/
opaque wrappedKey (i : Nat) : Byte
/-- The contents of the factory's certificates (R402), but for the identity key: before it, after it, the device CA and the root
CA. (DESIGN CHOICE, log 62). -/
opaque certPart (k : Nat) : List Byte
/-- The fused base MAC address (R409). (DESIGN CHOICE, log 62). -/
opaque macBase : BitVec 48
/-- The boot ROM's vendor firmware-signing public keys (R397): slot and byte. (DESIGN CHOICE, log 62). -/
opaque vendorKey (slot i : Nat) : Byte
/-- A byte of the boot ROM (R453). (DESIGN CHOICE, log 62). (DESIGN CHOICE, log 109). -/
opaque romByte (i : Nat) : Byte
/-- The factory tables in the body of a configuration image, whose layout the spec does not give, and with no body those of the
boot ROM (R295, R375, R399): tuning table words of a plane. (DESIGN CHOICE, log 62). -/
opaque factoryTune (body : List Byte) (q n : Nat) : W32
/-- Factory number of tuning points of a plane (R295). (DESIGN CHOICE, log 62). -/
opaque factoryTuneN (body : List Byte) (q : Nat) : BitVec 5
/-- Factory health table: the words of HMN_SM_A, SM_B, SM_C (0-2), HMN_W (16 + i) and HMN_CURVE
(256 + 16 i + n) (R375). (DESIGN CHOICE, log 62). -/
opaque factoryHealth (body : List Byte) (n : Nat) : W32
/-- How many interrupt identities an IMSIC file implements (AIA 1.0: 63 to 2,047, one less than a multiple of 64), beyond the
least, in units of 64. (PRESUMED, log 106). -/
opaque imsicSize : Nat
/-- Where the owner stages block `b` of source `i` in its window (R340 gives no placement). (DESIGN CHOICE, log 71). -/
opaque stageSlot (i b : Nat) : Nat
/-- Where in the amber area a piece lies (R379, R382 give no placement): kind 0 the own header and directory of slot index `a`,
1 stripe `b` of plan rank `a / 2` in slot index `a % 2`, 2 the manifest. (DESIGN CHOICE, log 76). -/
opaque amberPlace (kind a b : Nat) : Nat
/-- The owner public key of an enrolled hash (R404): no rule says where the device has the key of KEYIDX 4 from; byte `i`.
(DESIGN CHOICE, log 80). -/
opaque ownerKey (hash : List Byte) (i : Nat) : Byte
/-- Where in host SRAM the boot ROM puts the firmware body (R399 gives no place): its offset. (DESIGN CHOICE, log 80). -/
opaque firmwarePlace : Nat
/-- The octets of the fuse state that R406 hashes, whose form it does not give: revocations, minimum SVN, owner hash, debug lock.
(DESIGN CHOICE, log 80). -/
opaque fuseBytes (revoked : BitVec 4) (minSvn : BitVec 6) (owner : List Byte) (debugLock : Bool) : List Byte
/-- A reading in whole units of a value num/den that is not whole (R416 states no rounding of PWR_CAP_EFF). (DEDUCED, log 49). -/
opaque roundReading (num den : Nat) : Nat
/-- Which of the LINEAR11 encodings (PMBus 1.4) of a value num/den a PMBus reading gives: the spec states no rounding and none of
the equal encodings. (DEDUCED, log 87). -/
opaque linear11 (num : Int) (den : Nat) : Nat

end Sys2Proof.Config
end

