-- ==== Sys2Proof/Machine/Num.lean ====
section
/-!
DEFINITION. Exact dyadic values, formats and the one rounding (R50 to R57, R59, R71 to R73, R75, R461).
Every engine forms its exact result as an `FVal` and rounds it once with `FFmt.round` or `EKind.convert`.
-/
namespace Sys2Proof

/-- A value of any number format: NaN, an infinity, or exactly (-1)^neg * m * 2^e. -/
inductive FVal where
  | nan
  | inf (neg : Bool)
  | fin (neg : Bool) (m : Nat) (e : Int)
  deriving DecidableEq, Repr

/-- The rounding code of R71. -/
inductive Rnd where
  | rne | rtz | rna | sr
  deriving DecidableEq, Repr

def Rnd.ofCode (c : BitVec 2) : Rnd :=
  if c = 0#2 then .rne else if c = 1#2 then .rtz else if c = 2#2 then .rna else .sr

namespace FVal

def zero : FVal := .fin false 0 0
def one : FVal := .fin false 1 0

/-- An integer as a value; 0 is +0. -/
def ofInt (i : Int) : FVal := .fin (decide (i < 0)) i.natAbs 0

def isNaN : FVal → Bool
  | .nan => true
  | _ => false

def isInf : FVal → Bool
  | .inf _ => true
  | _ => false

/-- Not NaN and not infinite. -/
def isFinite : FVal → Bool
  | .fin _ _ _ => true
  | _ => false

def isZero : FVal → Bool
  | .fin _ m _ => m == 0
  | _ => false

def signBit : FVal → Bool
  | .nan => false
  | .inf n => n
  | .fin n _ _ => n

def neg : FVal → FVal
  | .nan => .nan
  | .inf n => .inf (!n)
  | .fin n m e => .fin (!n) m e

def abs : FVal → FVal
  | .nan => .nan
  | .inf _ => .inf false
  | .fin _ m e => .fin false m e

/-- floor(log2 m) for m > 0. -/
def ilog (m : Nat) : Nat := m.log2

/-- The exponent of the leading bit of a finite non-zero value. -/
def topExp : FVal → Int
  | .fin _ m e => (ilog m : Int) + e
  | _ => 0

/-- m * 2^e as a multiple of 2^u, for u ≤ e. -/
def alignTo (m : Nat) (e u : Int) : Nat := m <<< (e - u).toNat

/-- The exact sum, by IEEE 754 rules for zeros (RNE sign) and infinities. -/
def add (a b : FVal) : FVal :=
  match a, b with
  | .nan, _ => .nan
  | _, .nan => .nan
  | .inf n, .inf k => if n = k then .inf n else .nan
  | .inf n, .fin _ _ _ => .inf n
  | .fin _ _ _, .inf k => .inf k
  | .fin n m e, .fin k l f =>
    if m = 0 ∧ l = 0 then .fin (n && k) 0 0
    else if m = 0 then .fin k l f
    else if l = 0 then .fin n m e
    else
      let u := min e f
      let x : Int := (if n then -1 else 1) * (alignTo m e u : Int)
      let y : Int := (if k then -1 else 1) * (alignTo l f u : Int)
      let s := x + y
      if s = 0 then .fin false 0 0 else .fin (decide (s < 0)) s.natAbs u

def sub (a b : FVal) : FVal := add a b.neg

/-- The exact product (R63, R66). -/
def mul (a b : FVal) : FVal :=
  match a, b with
  | .nan, _ => .nan
  | _, .nan => .nan
  | .inf n, .inf k => .inf (n != k)
  | .inf n, .fin k l _ => if l = 0 then .nan else .inf (n != k)
  | .fin n m _, .inf k => if m = 0 then .nan else .inf (n != k)
  | .fin n m e, .fin k l f => .fin (n != k) (m * l) (if m * l = 0 then 0 else e + f)

/-- Exact comparison of finite magnitudes m * 2^e ≤ l * 2^f. -/
def magLe (m : Nat) (e : Int) (l : Nat) (f : Int) : Bool :=
  let u := min e f
  decide (alignTo m e u ≤ alignTo l f u)

/-- The ordered comparison a < b; false when either is NaN; zeros are equal. -/
def lt (a b : FVal) : Bool :=
  match a, b with
  | .nan, _ => false
  | _, .nan => false
  | .inf n, .inf k => n && !k
  | .inf n, .fin _ _ _ => n
  | .fin _ _ _, .inf k => !k
  | .fin n m e, .fin k l f =>
    if m = 0 ∧ l = 0 then false
    else if m = 0 then !k
    else if l = 0 then n
    else
      match n, k with
      | true, false => true
      | false, true => false
      | false, false => !(magLe l f m e)
      | true, true => !(magLe m e l f)

/-- The ordered comparison a = b; false when either is NaN; zeros are equal. -/
def eq (a b : FVal) : Bool := !a.isNaN && !b.isNaN && !(lt a b) && !(lt b a)

def le (a b : FVal) : Bool := lt a b || eq a b

/-- Multiply by 2^k exactly. -/
def scale2 (v : FVal) (k : Int) : FVal :=
  match v with
  | .fin n m e => .fin n m (if m = 0 then 0 else e + k)
  | v => v

end FVal

/-- Round (num / den) * 2^e to a whole number n of spacings 2^u (R71, R72): the count and whether it moved away
from zero. `g` is the draw of SR. -/
def quantise (r : Rnd) (g : Nat) (num den : Nat) (e u : Int) : Nat × Bool :=
  let top := if u ≤ e then num <<< (e - u).toNat else num
  let bot := if u ≤ e then den else den <<< (u - e).toNat
  let q := top / bot
  let rem := top % bot
  if rem = 0 then (q, false)
  else
    let up : Bool := match r with
      | .rne => decide (2 * rem > bot) || (decide (2 * rem = bot) && q % 2 == 1)
      | .rtz => false
      | .rna => decide (2 * rem ≥ bot)
      | .sr => decide ((rem <<< 32) / bot + g ≥ 2 ^ 32)
    (if up then q + 1 else q, up)

/-- floor(log2 (num / den)) for positive num and den. -/
def ilogRat (num den : Nat) : Int :=
  let k : Int := (num.log2 : Int) - (den.log2 : Int)
  let top := if 0 ≤ k then num else num <<< (-k).toNat
  let bot := if 0 ≤ k then den <<< k.toNat else den
  if top < bot then k - 1 else k

/-- The parameters of a floating-point type (R52, R59). The modes are the codes of R59: INF_MODE 0 none, 1 IEEE,
2 all-ones code; NAN_MODE 0 none, 1 IEEE, 2 all-ones code, 3 negative-zero code. `sat` is the SAT bit; `quiet` says
that the canonical NaN carries the top fraction bit (the built-in IEEE types, R75), not fraction 1. -/
structure FFmt where
  sign : Bool
  ebits : Nat
  fbits : Nat
  bias : Nat
  infMode : Nat
  nanMode : Nat
  sat : Bool
  quiet : Bool
  deriving DecidableEq, Repr

namespace FFmt

/-- The exponent field of all ones. -/
def eAll (f : FFmt) : Nat := 2 ^ f.ebits - 1

/-- The value of a code (R52, R59). -/
def decode (f : FFmt) (c : Nat) : FVal :=
  let frac := c % 2 ^ f.fbits
  let e := (c / 2 ^ f.fbits) % 2 ^ f.ebits
  let s := f.sign && (c / 2 ^ (f.fbits + f.ebits)) % 2 == 1
  let ones := e = f.eAll ∧ frac = 2 ^ f.fbits - 1
  if f.nanMode = 3 ∧ s ∧ e = 0 ∧ frac = 0 then .nan
  else if f.nanMode = 1 ∧ e = f.eAll ∧ frac ≠ 0 then .nan
  else if f.nanMode = 2 ∧ ones then .nan
  else if f.infMode = 1 ∧ e = f.eAll ∧ frac = 0 then .inf s
  else if f.infMode = 2 ∧ ones then .inf s
  else if e = 0 then
    .fin s frac (if frac = 0 then 0 else 1 - (f.bias : Int) - (f.fbits : Int))
  else .fin s (2 ^ f.fbits + frac) ((e : Int) - (f.bias : Int) - (f.fbits : Int))

/-- The code, without its sign, of the largest finite magnitude. -/
def largestCode (f : FFmt) : Nat :=
  let a := 2 ^ (f.ebits + f.fbits) - 1
  let z := f.eAll * 2 ^ f.fbits
  if (f.decode a).isFinite then a
  else if (f.decode (a - 1)).isFinite then a - 1
  else if (f.decode z).isFinite then z
  else z - 1

/-- The largest finite magnitude. -/
def largest (f : FFmt) : FVal := f.decode f.largestCode

/-- The exponent of the largest finite value (R74). -/
def emax (f : FFmt) : Int := f.largest.topExp

/-- The spacing exponent at a magnitude whose leading bit is at `k`: subnormal below the normal range (R72). -/
def spacing (f : FFmt) (k : Int) : Int := max k (1 - (f.bias : Int)) - (f.fbits : Int)

/-- The sign bit's weight in a code, when negative and signed. -/
def signWeight (f : FFmt) (neg : Bool) : Nat :=
  if neg && f.sign then 2 ^ (f.ebits + f.fbits) else 0

/-- The code of a finite value n * 2^u that the format holds. R59: with NAN_MODE 3 the format has no -0. -/
def finiteCode (f : FFmt) (neg : Bool) (n : Nat) (u : Int) : Nat :=
  if n = 0 then (if f.nanMode = 3 then 0 else f.signWeight neg)
  else
    let k : Int := (n.log2 : Int) + u
    let lo : Int := 1 - (f.bias : Int)
    if k < lo then f.signWeight neg + (n <<< (u - (lo - f.fbits)).toNat)
    else
      let w := k - f.fbits
      let sig := if w ≤ u then n <<< (u - w).toNat else n >>> (w - u).toNat
      f.signWeight neg + (k - lo + 1).toNat * 2 ^ f.fbits + (sig - 2 ^ f.fbits)

/-- The canonical NaN code (R75); 0 where the format has no NaN (R73). -/
def nanCode (f : FFmt) : Nat :=
  if f.nanMode = 1 then f.eAll * 2 ^ f.fbits + (if f.quiet then 2 ^ (f.fbits - 1) else 1)
  else if f.nanMode = 2 then 2 ^ (f.ebits + f.fbits) - 1
  else if f.nanMode = 3 then 2 ^ (f.ebits + f.fbits)
  else 0

/-- The code of an infinity, for INF_MODE 1 or 2. -/
def infCode (f : FFmt) (neg : Bool) : Nat :=
  f.signWeight neg + f.eAll * 2 ^ f.fbits + (if f.infMode = 2 then 2 ^ f.fbits - 1 else 0)

/-- The finite magnitude missing inside the range (R461; NAN_MODE 2 and 3 by the same reading, log 10). -/
def hasGap (f : FFmt) : Bool :=
  f.infMode == 1 && decide (1 ≤ f.fbits) &&
    (f.nanMode == 0 || f.nanMode == 3 || (f.nanMode == 2 && decide (2 ≤ f.fbits)))

/-- Rounding between L and U of R461: the code picked for (num / den) * 2^e, or none outside the interval. (DEDUCED, log 10). -/
def gapCode (f : FFmt) (r : Rnd) (g num den : Nat) (e : Int) : Option Nat :=
  if !f.hasGap then none
  else
    let lo := f.eAll * 2 ^ f.fbits - 1
    let hi := f.eAll * 2 ^ f.fbits + 1
    match f.decode lo, f.decode hi with
    | .fin _ ml el, .fin _ mh eh =>
      let u := min e (min el eh)
      let a := FVal.alignTo ml el u * den
      let b := FVal.alignTo mh eh u * den
      let x := FVal.alignTo num e u
      if a < x ∧ x < b then
        match r with
        | .rtz => some lo
        | .sr => some (if ((x - a) <<< 32) / (b - a) + g ≥ 2 ^ 32 then hi else lo)
        | .rne => some (if b - x < x - a then hi else lo)
        | .rna => some (if b - x ≤ x - a then hi else lo)
      else none
    | _, _ => none

end FFmt

/-- What converting one element gives (R73): its code, whether it saturated, and whether a NaN became a number. -/
structure Conv where
  code : Nat
  sat : Bool
  nanNum : Bool
  deriving DecidableEq, Repr

namespace FFmt

/-- Convert the finite (num / den) * 2^e of the given sign (R71 to R73, R461). (DEDUCED, log 24; with FBITS = 0 the even multiple of
the spacing, log 10). -/
def convFinite (f : FFmt) (r : Rnd) (g : Nat) (neg : Bool) (num den : Nat) (e : Int) : Conv :=
  if neg && !f.sign then ⟨0, false, false⟩
  else if num = 0 then ⟨f.finiteCode neg 0 0, false, false⟩
  else
    match f.gapCode r g num den e with
    | some c => ⟨f.signWeight neg + c, false, false⟩
    | none =>
      let u := f.spacing (ilogRat num den + e)
      let q := quantise r g num den e u
      let tooBig : Bool := match f.largest with
        | .fin _ m x => !(FVal.magLe q.1 u m x)
        | _ => false
      if tooBig then
        let away : Bool := match r with
          | .rtz => false
          | .sr => q.2
          | _ => true
        if away && !f.sat && f.infMode != 0 then ⟨f.infCode neg, false, false⟩
        else if away && !f.sat && f.nanMode != 0 then ⟨f.nanCode, false, false⟩
        else ⟨f.signWeight neg + f.largestCode, true, false⟩
      else ⟨f.finiteCode neg q.1 u, false, false⟩

/-- Convert any value, the block scale aside (R73). (DEDUCED, log 24). -/
def conv (f : FFmt) (r : Rnd) (g : Nat) (v : FVal) : Conv :=
  match v with
  | .nan => ⟨f.nanCode, false, f.nanMode == 0⟩
  | .inf neg =>
    if neg && !f.sign then ⟨0, false, false⟩
    else if f.infMode != 0 then ⟨f.infCode neg, false, false⟩
    else if f.nanMode != 0 then ⟨f.nanCode, false, false⟩
    else ⟨f.signWeight neg + f.largestCode, true, false⟩
  | .fin neg m e => f.convFinite r g neg m 1 e

/-- A value rounded once into the format, as a value. -/
def round (f : FFmt) (r : Rnd) (v : FVal) : FVal := f.decode (f.conv r 0 v).code

end FFmt

namespace Fmt

def e4m3 : FFmt := ⟨true, 4, 3, 7, 0, 2, true, false⟩
def e5m2 : FFmt := ⟨true, 5, 2, 15, 1, 1, false, true⟩
def e3m2 : FFmt := ⟨true, 3, 2, 3, 0, 0, true, false⟩
def e2m3 : FFmt := ⟨true, 2, 3, 1, 0, 0, true, false⟩
def e2m1 : FFmt := ⟨true, 2, 1, 1, 0, 0, true, false⟩
def bf16 : FFmt := ⟨true, 8, 7, 127, 1, 1, false, true⟩
def f16 : FFmt := ⟨true, 5, 10, 15, 1, 1, false, true⟩
def b32 : FFmt := ⟨true, 8, 23, 127, 1, 1, false, true⟩
def b64 : FFmt := ⟨true, 11, 52, 1023, 1, 1, false, true⟩
/-- The chunk format: 10-bit exponent, bias 511, 32-bit significand with its leading bit. -/
def chunk : FFmt := ⟨true, 10, 31, 511, 1, 1, false, true⟩

end Fmt

/-- RNE into binary64 or binary32, as a value (R76). (DEDUCED, log 26). -/
def rne64 (v : FVal) : FVal := Fmt.b64.round .rne v
def rne32 (v : FVal) : FVal := Fmt.b32.round .rne v
def rneChunk (v : FVal) : FVal := Fmt.chunk.round .rne v

/-- The code of a value rounded once (RNE). -/
def b64Bits (v : FVal) : BitVec 64 := BitVec.ofNat 64 (Fmt.b64.conv .rne 0 v).code
def b32Bits (v : FVal) : BitVec 32 := BitVec.ofNat 32 (Fmt.b32.conv .rne 0 v).code
def ofB64 (b : BitVec 64) : FVal := Fmt.b64.decode b.toNat
def ofB32 (b : BitVec 32) : FVal := Fmt.b32.decode b.toNat

end Sys2Proof
end

