-- ==== Sys2Proof/Machine/Convert.lean ====
section
/-!
DEFINITION. Element types, the format table, packing, conversion of blocks, and the wide sum
(R50, R51, R55, R56, R58 to R62, R71 to R75, R78 to R82).
-/
namespace Sys2Proof

/-- What an element code means before its block scale. -/
inductive EKind where
  | int (signed : Bool) (w : Nat)
  | mxint8
  | flt (f : FFmt)
  deriving DecidableEq, Repr

/-- The type of a block scale (R55, R59). -/
inductive ScaleKind where
  | e8m0 | e4m3 | f16
  deriving DecidableEq, Repr

/-- An element type: its kind, its width in bits, its block length (0 unblocked) and its scale type. -/
structure EType where
  kind : EKind
  width : Nat
  block : Nat
  scale : ScaleKind
  deriving DecidableEq, Repr

/-- The format table a tile holds (R58): DEFINED and the sixteen 128-bit entries. -/
structure FormatTable where
  defined : BitVec 16
  entry : Vector (BitVec 128) 16
  deriving DecidableEq, Repr

def FormatTable.empty : FormatTable := ⟨0, Vector.replicate 16 0⟩

namespace EType

def plain (k : EKind) (w : Nat) : EType := ⟨k, w, 0, .e8m0⟩
def mx (k : EKind) (w : Nat) : EType := ⟨k, w, 32, .e8m0⟩

/-- The element width in bytes, for types of whole bytes. -/
def bytes (t : EType) : Nat := t.width / 8

/-- Bytes of one block scale (R206): 0 unblocked, 1 for E8M0 and FP8-E4M3, 2 for binary16. -/
def scaleBytes (t : EType) : Nat :=
  if t.block = 0 then 0 else match t.scale with
    | .f16 => 2
    | _ => 1

end EType

/-- A field of a 128-bit format entry. -/
def entryField (e : BitVec 128) (lo len : Nat) : Nat := (e.toNat / 2 ^ lo) % 2 ^ len

/-- The floating-point parameters of a user entry (R59). -/
def entryFmt (e : BitVec 128) : FFmt :=
  ⟨entryField e 5 1 == 1, entryField e 8 4, entryField e 12 4, entryField e 16 8, entryField e 24 2,
    entryField e 26 2, entryField e 28 1 == 1, false⟩

/-- The element type of a user entry (R59). -/
def entryType (e : BitVec 128) : EType :=
  let b := entryField e 32 2
  ⟨.flt (entryFmt e), entryField e 0 5, if b = 0 then 0 else 8 * 2 ^ b,
    if entryField e 34 2 = 0 then .e8m0 else if entryField e 34 2 = 1 then .e4m3 else .f16⟩

/-- The smallest non-zero magnitude of a format: fraction 1 at e = 0, or e = 1 where there is no fraction. -/
def FFmt.smallest (f : FFmt) : FVal :=
  if f.fbits = 0 then .fin false 1 (1 - (f.bias : Int))
  else .fin false 1 (1 - (f.bias : Int) - (f.fbits : Int))

/-- The validity of a defined entry (R60). -/
def entryValid (e : BitVec 128) : Bool :=
  let w := entryField e 0 5
  let sign := entryField e 5 1
  let eb := entryField e 8 4
  let fb := entryField e 12 4
  let im := entryField e 24 2
  let nm := entryField e 26 2
  let f := entryFmt e
  (w == 4 || w == 6 || w == 8 || w == 12 || w == 16) &&
  decide (1 ≤ eb) && decide (eb ≤ 8) && decide (fb ≤ 10) &&
  sign + eb + fb == w &&
  im != 3 && entryField e 34 2 != 3 &&
  !(im == 2 && (nm == 1 || nm == 2)) && !(im == 1 && nm == 2 && fb == 0) &&
  !(nm == 1 && fb == 0) && !(nm == 3 && sign == 0) &&
  FVal.lt f.largest (.fin false 1 128) && FVal.le (.fin false 1 (-149)) f.smallest &&
  entryField e 6 2 == 0 && entryField e 29 3 == 0 && entryField e 36 28 == 0 && entryField e 96 32 == 0

/-- The element type that a 5-bit code names (R50), or none for an undefined user format (R62). -/
def FormatTable.resolve (ft : FormatTable) (code : BitVec 5) : Option EType :=
  match code.toNat with
  | 0x00 => some (.plain (.int true 8) 8)
  | 0x01 => some (.plain (.int false 8) 8)
  | 0x02 => some (.plain (.int true 16) 16)
  | 0x03 => some (.plain (.int true 32) 32)
  | 0x04 => some (.plain (.flt Fmt.e4m3) 8)
  | 0x05 => some (.plain (.flt Fmt.e5m2) 8)
  | 0x06 => some (.mx (.flt Fmt.e4m3) 8)
  | 0x07 => some (.mx (.flt Fmt.e5m2) 8)
  | 0x08 => some (.mx (.flt Fmt.e3m2) 6)
  | 0x09 => some (.mx (.flt Fmt.e2m3) 6)
  | 0x0A => some (.mx (.flt Fmt.e2m1) 4)
  | 0x0B => some (.mx .mxint8 8)
  | 0x0C => some (.plain (.flt Fmt.bf16) 16)
  | 0x0D => some (.plain (.flt Fmt.f16) 16)
  | 0x0E => some (.plain (.flt Fmt.b32) 32)
  | 0x0F => some (.plain (.flt Fmt.b64) 64)
  | n => if ft.defined.getLsbD (n - 16) then some (entryType (ft.entry.getD (n - 16) 0)) else none

/-- Whether a type may be an operand of an array (R50, R65). -/
def arrayType (code : BitVec 5) : Bool := !(code == 0x02#5 || code == 0x03#5 || code == 0x0F#5)

/-- The value of an element code, the block scale aside (R52, R56, R57). -/
def EKind.decode (k : EKind) (c : Nat) : FVal :=
  match k with
  | .int false _ => .fin false c 0
  | .int true w => FVal.ofInt (if c < 2 ^ (w - 1) then (c : Int) else (c : Int) - 2 ^ w)
  | .mxint8 => (FVal.ofInt (if c < 128 then (c : Int) else (c : Int) - 256)).scale2 (-6)
  | .flt f => f.decode c

/-- The value of a scale code (R55, R60). -/
def ScaleKind.decode (k : ScaleKind) (c : Nat) : FVal :=
  match k with
  | .e8m0 => if c = 0xFF then .nan else .fin false 1 ((c : Int) - 127)
  | .e4m3 => Fmt.e4m3.decode c
  | .f16 => Fmt.f16.decode c

/-- The value of an element with its block's scale code (R55, R60): the scale code is unused where unblocked. -/
def EType.decode (t : EType) (scale code : Nat) : FVal :=
  let v := t.kind.decode code
  if t.block = 0 then v else FVal.mul v (t.scale.decode scale)

/-- The exponent of the element type's largest finite value (R74). -/
def EKind.emax (k : EKind) : Int :=
  match k with
  | .int _ w => (w : Int) - 1
  | .mxint8 => 0
  | .flt f => f.emax

/-- The largest finite magnitude of the element type (R74). -/
def EKind.largest (k : EKind) : FVal :=
  match k with
  | .int true w => .fin false (2 ^ (w - 1) - 1) 0
  | .int false w => .fin false (2 ^ w - 1) 0
  | .mxint8 => .fin false 127 (-6)
  | .flt f => f.largest

def EKind.hasInf (k : EKind) : Bool :=
  match k with
  | .flt f => f.infMode != 0
  | _ => false

/-- Convert the finite (num / den) * 2^e to an integer type in units of 2^u, saturating to [lo, hi] (R73). (DEDUCED, log 24). -/
def convInt (r : Rnd) (g : Nat) (neg : Bool) (num den : Nat) (e u : Int) (lo hi : Int) (w : Nat) : Conv :=
  let q := quantise r g num den e u
  let v : Int := if neg then -(q.1 : Int) else (q.1 : Int)
  let c : Int → Nat := fun x => (x % (2 ^ w : Int)).toNat
  if v < lo then ⟨c lo, true, false⟩ else if hi < v then ⟨c hi, true, false⟩ else ⟨c v, false, false⟩

def EKind.lo (k : EKind) : Int :=
  match k with
  | .int true w => -(2 ^ (w - 1) : Int)
  | .mxint8 => -127
  | _ => 0

def EKind.hi (k : EKind) : Int :=
  match k with
  | .int true w => (2 ^ (w - 1) : Int) - 1
  | .int false w => (2 ^ w : Int) - 1
  | .mxint8 => 127
  | _ => 0

/-- Convert one finite element, as (num / den) * 2^e (R71 to R73). -/
def EKind.convFinite (k : EKind) (r : Rnd) (g : Nat) (neg : Bool) (num den : Nat) (e : Int) : Conv :=
  match k with
  | .flt f => f.convFinite r g neg num den e
  | .mxint8 => convInt r g neg num den e (-6) k.lo k.hi 8
  | .int _ w => convInt r g neg num den e 0 k.lo k.hi w

/-- Convert one element of any value, the block scale aside (R73). -/
def EKind.conv (k : EKind) (r : Rnd) (g : Nat) (v : FVal) : Conv :=
  match k, v with
  | .flt f, v => f.conv r g v
  | k, .fin neg m e => k.convFinite r g neg m 1 e
  | _, .nan => ⟨0, false, true⟩
  | k, .inf neg =>
    let w := match k with
      | .int _ w => w
      | _ => 8
    ⟨((if neg then k.lo else k.hi) % (2 ^ w : Int)).toNat, true, false⟩

/-- What converting a run of elements gives: codes, one scale code per block, and the two counts of R73. -/
structure ConvRun where
  codes : List Nat
  scales : List Nat
  sat : Nat
  nanNum : Nat
  deriving DecidableEq, Repr

def ConvRun.append (a b : ConvRun) : ConvRun :=
  ⟨a.codes ++ b.codes, a.scales ++ b.scales, a.sat + b.sat, a.nanNum + b.nanNum⟩

def ConvRun.ofConvs (l : List Conv) (scales : List Nat) : ConvRun :=
  ⟨l.map (·.code), scales, (l.filter (·.sat)).length, (l.filter (·.nanNum)).length⟩

/-- The larger of two finite magnitudes. -/
def FVal.maxMag (a b : FVal) : FVal :=
  match a, b with
  | .fin _ m e, .fin _ l f => if FVal.magLe m e l f then .fin false l f else .fin false m e
  | .fin _ m e, _ => .fin false m e
  | _, .fin _ l f => .fin false l f
  | _, _ => FVal.zero

/-- amax of R74: the largest finite magnitude. (DESIGN CHOICE, log 99). -/
def amax (vs : List FVal) : FVal := vs.foldl FVal.maxMag FVal.zero

def ScaleKind.nanCode : ScaleKind → Nat
  | .e8m0 => 0xFF
  | .e4m3 => 0x7F
  | .f16 => 0x7E00

/-- The scale of a zero block (R74): code 0x00 for E8M0, 1.0 otherwise. -/
def ScaleKind.zeroCode : ScaleKind → Nat
  | .e8m0 => 0
  | .e4m3 => 0x38
  | .f16 => 0x3C00

/-- The smallest positive value of a floating scale type at or above (num / den) * 2^e, else its largest (R74). -/
def scaleAtLeast (f : FFmt) (num den : Nat) (e : Int) : Nat :=
  let u := f.spacing (ilogRat num den + e)
  let top := if u ≤ e then num <<< (e - u).toNat else num
  let bot := if u ≤ e then den else den <<< (u - e).toNat
  let n := (top + bot - 1) / bot
  match f.largest with
  | .fin _ m x => if FVal.magLe n u m x then f.finiteCode false n u else f.largestCode
  | _ => f.largestCode

/-- The scale code that R74 gives a block with a finite non-zero amax. (DEDUCED, log 25). -/
def chooseScale (t : EType) (a : FVal) : Nat :=
  match t.scale, a, t.kind.largest with
  | .e8m0, a, _ => (max (-127) (min 127 (a.topExp - t.kind.emax)) + 127).toNat
  | .e4m3, .fin _ m e, .fin _ l f => scaleAtLeast Fmt.e4m3 m l (e - f)
  | .f16, .fin _ m e, .fin _ l f => scaleAtLeast Fmt.f16 m l (e - f)
  | _, _, _ => 0

/-- Convert one block, each value with its SR draw (R74). (DEDUCED, log 25). -/
def convBlock (t : EType) (r : Rnd) (vs : List (FVal × Nat)) : ConvRun :=
  let vals := vs.map (·.1)
  if vals.any fun v => v.isNaN || (v.isInf && !t.kind.hasInf) then
    ⟨vs.map fun _ => 0, [t.scale.nanCode], 0, 0⟩
  else
    let a := amax vals
    if a.isZero then
      .ofConvs (vs.map fun v => if v.1.isInf then t.kind.conv r v.2 v.1 else ⟨0, false, false⟩)
        [t.scale.zeroCode]
    else
      let sc := chooseScale t a
      match t.scale.decode sc with
      | .fin _ sm se =>
        .ofConvs (vs.map fun v => match v.1 with
          | .fin n m e => t.kind.convFinite r v.2 n m sm (e - se)
          | w => t.kind.conv r v.2 w) [sc]
      | _ => ⟨vs.map fun _ => 0, [t.scale.nanCode], 0, 0⟩

/-- Convert a run of values, block by block for a block type; each value carries its SR draw. -/
def convRun (t : EType) (r : Rnd) (vs : List (FVal × Nat)) : ConvRun :=
  if t.block = 0 then .ofConvs (vs.map fun v => t.kind.conv r v.2 v.1) []
  else
    let rec go : Nat → List (FVal × Nat) → ConvRun
      | 0, _ => ⟨[], [], 0, 0⟩
      | _ + 1, [] => ⟨[], [], 0, 0⟩
      | n + 1, l => (convBlock t r (l.take t.block)).append (go n (l.drop t.block))
    go (vs.length + 1) vs

/-- Whether a value is NaN or infinite, as the engines count it. -/
def FVal.nonFinite (v : FVal) : Bool := !v.isFinite

/-- One contribution to a reduction block (R78): its type, its scale code, its element codes and its NONFIN bit. -/
structure Contribution where
  type : EType
  scale : Nat
  codes : List Nat
  nonfin : Bool
  deriving DecidableEq, Repr

/-- The element values of a contribution, scale included. -/
def Contribution.values (c : Contribution) : List FVal := c.codes.map (c.type.decode c.scale)

/-- T_c of R78; none for an all-zero contribution or one without finite scale. Of a contribution without block scales that holds
infinities or NaN, m is taken over its finite elements (DESIGN CHOICE, log 99). -/
def Contribution.top (c : Contribution) : Option Int :=
  let vs := c.values
  if vs.all (·.isZero) then none
  else if c.type.block = 0 then
    let m := amax vs
    if m.isZero then none else some (m.topExp + 1)
  else
    let sv := c.type.scale.decode c.scale
    if !sv.isFinite || sv.isZero then none
    else match c.type.scale with
      | .e8m0 => some (sv.topExp + c.type.kind.emax + (if c.type.kind = .mxint8 then 2 else 1))
      | _ => some (sv.topExp + c.type.kind.emax + 2)

/-- The anchor T (R78): the largest T_c. -/
def anchor (cs : List Contribution) : Option Int :=
  (cs.filterMap (·.top)).foldl (fun a t => match a with
    | none => some t
    | some b => some (max b t)) none

/-- One element as it enters the word: its multiple of 2^(T - 100), rounded once RNE (R79). -/
def enterWord (t : Int) (v : FVal) : Int :=
  match v with
  | .fin n m e =>
    let q : Int := ((quantise .rne 0 m 1 e (t - 100)).1 : Int)
    if n then -q else q
  | _ => 0

/-- The wide sum of element `i` over the contributions of its block: the binary32 value before any override, and
whether it raises the non-finite flag (R79, R81, R82). -/
def wideElement (cs : List Contribution) (t : Option Int) (i : Nat) : FVal × Bool :=
  let vs := cs.map fun c => c.values.getD i FVal.zero
  let badScale := cs.any fun c => c.type.block != 0 && (c.type.scale.decode c.scale).isNaN
  if cs.any (·.nonfin) || badScale || vs.any (·.nonFinite) then (.nan, true)
  else match t with
    | none => (FVal.zero, false)
    | some t =>
      let w : Int := (vs.map (enterWord t)).foldl (· + ·) 0
      let r := rne32 (if w = 0 then FVal.zero else .fin (decide (w < 0)) w.natAbs (t - 100))
      (if r.isZero then FVal.zero else r, r.nonFinite)

/-- The wide sum of a reduction block of `n` elements. -/
def wideSum (cs : List Contribution) (n : Nat) : List (FVal × Bool) :=
  let t := anchor cs
  (List.range n).map (wideElement cs t)

/-- Bits [off, off + w) of a little-endian byte source (R51). -/
def bitsAt (rd : Nat → Byte) (off w : Nat) : Nat :=
  let b0 := off / 8
  let nb := (off % 8 + w + 7) / 8
  let word := (List.range nb).foldr (fun i a => (rd (b0 + i)).toNat + 256 * a) 0
  (word >>> (off % 8)) % 2 ^ w

/-- Little-endian bytes of a number. -/
def leBytes (n : Nat) (len : Nat) : List Byte :=
  (List.range len).map fun i => BitVec.ofNat 8 (n >>> (8 * i))

/-- The number little-endian bytes spell. -/
def leNat (l : List Byte) : Nat := l.foldr (fun b a => b.toNat + 256 * a) 0

/-- Pack codes of `w` bits little-endian with no gaps (R51). -/
def packCodes (w : Nat) (codes : List Nat) : List Byte :=
  leBytes (codes.foldr (fun c a => c % 2 ^ w + a * 2 ^ w) 0) ((w * codes.length + 7) / 8)

/-- Unpack `n` codes of `w` bits (R51). -/
def unpackCodes (w n : Nat) (l : List Byte) : List Nat :=
  let x := leNat l
  (List.range n).map fun i => (x >>> (w * i)) % 2 ^ w

end Sys2Proof
end

