-- ==== Sys2Proof/Machine/Crypto.lean ====
section
/-!
DEFINITION. The external algorithms the spec cites: CRC-64/XZ, SHA-384 (FIPS 180-4), ECDSA P-384 verification
and signature (FIPS 186-5). The device's own private key and nonces are free (`Config.identitySecret`, `Config.nonce`).
-/
namespace Sys2Proof

/-- One bit of the reflected ECMA-182 division. -/
def crcBit (c : Nat) : Nat := if c % 2 = 1 then (c / 2) ^^^ 0xC96C5795D7870F42 else c / 2

/-- One byte of CRC-64/XZ. -/
def crcByte (c : Nat) (b : Byte) : Nat :=
  crcBit (crcBit (crcBit (crcBit (crcBit (crcBit (crcBit (crcBit (c ^^^ b.toNat))))))))

/-- CRC-64 with the ECMA-182 polynomial, CRC-64/XZ parameter set. -/
def crc64 (l : List Byte) : BitVec 64 :=
  BitVec.ofNat 64 (l.foldl crcByte 0xFFFFFFFFFFFFFFFF ^^^ 0xFFFFFFFFFFFFFFFF)

namespace Sha

/-- The round constants: the first 64 fraction bits of the cube roots of the first eighty primes. -/
def k : List Nat :=
  [0x428A2F98D728AE22, 0x7137449123EF65CD, 0xB5C0FBCFEC4D3B2F, 0xE9B5DBA58189DBBC,
     0x3956C25BF348B538, 0x59F111F1B605D019, 0x923F82A4AF194F9B, 0xAB1C5ED5DA6D8118,
     0xD807AA98A3030242, 0x12835B0145706FBE, 0x243185BE4EE4B28C, 0x550C7DC3D5FFB4E2,
     0x72BE5D74F27B896F, 0x80DEB1FE3B1696B1, 0x9BDC06A725C71235, 0xC19BF174CF692694]
  ++ [0xE49B69C19EF14AD2, 0xEFBE4786384F25E3, 0x0FC19DC68B8CD5B5, 0x240CA1CC77AC9C65,
     0x2DE92C6F592B0275, 0x4A7484AA6EA6E483, 0x5CB0A9DCBD41FBD4, 0x76F988DA831153B5,
     0x983E5152EE66DFAB, 0xA831C66D2DB43210, 0xB00327C898FB213F, 0xBF597FC7BEEF0EE4,
     0xC6E00BF33DA88FC2, 0xD5A79147930AA725, 0x06CA6351E003826F, 0x142929670A0E6E70]
  ++ [0x27B70A8546D22FFC, 0x2E1B21385C26C926, 0x4D2C6DFC5AC42AED, 0x53380D139D95B3DF,
     0x650A73548BAF63DE, 0x766A0ABB3C77B2A8, 0x81C2C92E47EDAEE6, 0x92722C851482353B,
     0xA2BFE8A14CF10364, 0xA81A664BBC423001, 0xC24B8B70D0F89791, 0xC76C51A30654BE30,
     0xD192E819D6EF5218, 0xD69906245565A910, 0xF40E35855771202A, 0x106AA07032BBD1B8]
  ++ [0x19A4C116B8D2D0C8, 0x1E376C085141AB53, 0x2748774CDF8EEB99, 0x34B0BCB5E19B48A8,
     0x391C0CB3C5C95A63, 0x4ED8AA4AE3418ACB, 0x5B9CCA4F7763E373, 0x682E6FF3D6B2B8A3,
     0x748F82EE5DEFB2FC, 0x78A5636F43172F60, 0x84C87814A1F0AB72, 0x8CC702081A6439EC,
     0x90BEFFFA23631E28, 0xA4506CEBDE82BDE9, 0xBEF9A3F7B2C67915, 0xC67178F2E372532B]
  ++ [0xCA273ECEEA26619C, 0xD186B8C721C0C207, 0xEADA7DD6CDE0EB1E, 0xF57D4F7FEE6ED178,
     0x06F067AA72176FBA, 0x0A637DC5A2C898A6, 0x113F9804BEF90DAE, 0x1B710B35131C471B,
     0x28DB77F523047D84, 0x32CAAB7B40C72493, 0x3C9EBE0A15C9BEBC, 0x431D67C49C100D4C,
     0x4CC5D4BECB3E42B6, 0x597F299CFC657E2A, 0x5FCB6FAB3AD6FAEC, 0x6C44198C4A475817]

/-- The initial hash value: the first 64 fraction bits of the square roots of the ninth to sixteenth primes. -/
def h0 : List Nat :=
  [0xCBBB9D5DC1059ED8, 0x629A292A367CD507, 0x9159015A3070DD17, 0x152FECD8F70E5939,
   0x67332667FFC00B31, 0x8EB44A8768581511, 0xDB0C2E0D64F98FA7, 0x47B5481DBEFA4FA4]

def m64 (n : Nat) : Nat := n % 2 ^ 64
def rotr (x n : Nat) : Nat := m64 ((x >>> n) ||| (x <<< (64 - n)))

/-- Eighty message words from the sixteen of a block, newest first. -/
def schedule (block : List Nat) : List Nat :=
  let rec go : Nat → List Nat → List Nat
    | 0, w => w
    | n + 1, w =>
      let x15 := w.getD 14 0
      let x2 := w.getD 1 0
      let s0 := rotr x15 1 ^^^ rotr x15 8 ^^^ (x15 >>> 7)
      let s1 := rotr x2 19 ^^^ rotr x2 61 ^^^ (x2 >>> 6)
      go n (m64 (w.getD 15 0 + s0 + w.getD 6 0 + s1) :: w)
  (go 64 block.reverse).reverse

/-- One round on the working variables a to h. -/
def round (v : List Nat) (kw : Nat × Nat) : List Nat :=
  match v with
  | [a, b, c, d, e, f, g, h] =>
    let s1 := rotr e 14 ^^^ rotr e 18 ^^^ rotr e 41
    let ch := (e &&& f) ^^^ ((2 ^ 64 - 1 - e) &&& g)
    let t1 := h + s1 + ch + kw.1 + kw.2
    let s0 := rotr a 28 ^^^ rotr a 34 ^^^ rotr a 39
    let mj := (a &&& b) ^^^ (a &&& c) ^^^ (b &&& c)
    [m64 (t1 + s0 + mj), a, b, c, m64 (d + t1), e, f, g]
  | v => v

def compress (h block : List Nat) : List Nat :=
  List.zipWith (fun x y => m64 (x + y)) h ((k.zip (schedule block)).foldl round h)

/-- Big-endian bytes of a number. -/
def beBytes (n len : Nat) : List Byte := (leBytes n len).reverse
def beNat (l : List Byte) : Nat := l.foldl (fun a b => a * 256 + b.toNat) 0

/-- The padded message. -/
def pad (l : List Byte) : List Byte :=
  l ++ [0x80#8] ++ List.replicate ((239 - l.length % 128) % 128) 0#8 ++ beBytes (8 * l.length) 16

def words : Nat → List Byte → List Nat
  | 0, _ => []
  | n + 1, l => beNat (l.take 8) :: words n (l.drop 8)

def blocks : Nat → List Nat → List Byte → List Nat
  | 0, h, _ => h
  | n + 1, h, l => blocks n (compress h (words 16 (l.take 128))) (l.drop 128)

end Sha

/-- SHA-384: 48 bytes. (DESIGN CHOICE, log 94). -/
def sha384 (l : List Byte) : List Byte :=
  let p := Sha.pad l
  ((Sha.blocks (p.length / 128) Sha.h0 p).take 6).flatMap fun w => Sha.beBytes w 8

namespace P384

def p : Nat := 2 ^ 384 - 2 ^ 128 - 2 ^ 96 + 2 ^ 32 - 1
def b : Nat :=
  0xB3312FA7E23EE7E4988E056BE3F82D19181D9C6EFE8141120314088F5013875AC656398D8A2ED19D2A85C8EDD3EC2AEF
def n : Nat :=
  0xFFFFFFFFFFFFFFFFFFFFFFFFFFFFFFFFFFFFFFFFFFFFFFFFC7634D81F4372DDF581A0DB248B0A77AECEC196ACCC52973
def gx : Nat :=
  0xAA87CA22BE8B05378EB1C71EF320AD746E1D3B628BA79B9859F741E082542A385502F25DBF55296C3A545E3872760AB7
def gy : Nat :=
  0x3617DE4A96262C6F5D9E98BF9292DC29F8F41DBD289A147CE9DA3113B5F0B8C00A60B1CE1D7E819D7A431D7C90EA0E5F

/-- x^e mod m by the bits of e, lowest first. -/
def powMod (m : Nat) : Nat → Nat → Nat → Nat
  | 0, _, _ => 1
  | k + 1, x, e =>
    let r := powMod m k (x * x % m) (e / 2)
    if e % 2 = 1 then x * r % m else r

def inv (m x : Nat) : Nat := powMod m 384 (x % m) (m - 2)

/-- A point in Jacobian coordinates; z = 0 is the point at infinity. -/
structure Pt where
  x : Nat
  y : Nat
  z : Nat

def sub (x y : Nat) : Nat := (x + (p - y % p)) % p

def dbl (q : Pt) : Pt :=
  if q.z = 0 ∨ q.y = 0 then ⟨1, 1, 0⟩
  else
    let zz := q.z * q.z % p
    let m := 3 * (sub q.x zz) * (q.x + zz) % p
    let yy := q.y * q.y % p
    let s := 4 * q.x * yy % p
    let x := sub (m * m) (2 * s)
    ⟨x, sub (m * sub s x) (8 * yy * yy), 2 * q.y * q.z % p⟩

def add (a c : Pt) : Pt :=
  if a.z = 0 then c
  else if c.z = 0 then a
  else
    let za := a.z * a.z % p
    let zc := c.z * c.z % p
    let u1 := a.x * zc % p
    let u2 := c.x * za % p
    let s1 := a.y * zc * c.z % p
    let s2 := c.y * za * a.z % p
    if u1 = u2 then (if s1 = s2 then dbl a else ⟨1, 1, 0⟩)
    else
      let h := sub u2 u1
      let r := sub s2 s1
      let hh := h * h % p
      let v := u1 * hh % p
      let x := sub (r * r) (hh * h + 2 * v)
      ⟨x, sub (r * sub v x) (s1 * hh * h), h * a.z * c.z % p⟩

def mulPt : Nat → Nat → Pt → Pt
  | 0, _, _ => ⟨1, 1, 0⟩
  | k + 1, e, q =>
    let r := mulPt k (e / 2) (dbl q)
    if e % 2 = 1 then add q r else r

/-- The affine coordinates of k·G. -/
def baseMul (k : Nat) : Nat × Nat :=
  let t := mulPt 384 k ⟨gx, gy, 1⟩
  let zi := inv p t.z
  let zz := zi * zi % p
  (t.x * zz % p, t.y * (zz * zi % p) % p)

/-- A number brought into 1 to n - 1. -/
def scalar (x : Nat) : Nat := x % (n - 1) + 1

/-- ECDSA signature of a hash with private key d and per-message secret k: r and s. -/
def sign (d k hash : Nat) : Nat × Nat :=
  let r := (baseMul k).1 % n
  (r, inv n k * (hash + r * d) % n)

/-- ECDSA verification of (r, s) over a hash, with the affine public key. -/
def verify (qx qy hash r s : Nat) : Bool :=
  if qx < p ∧ qy < p ∧ (qy * qy + 3 * qx) % p = (qx * qx * qx + b) % p ∧ 0 < r ∧ r < n ∧ 0 < s ∧ s < n then
    let w := inv n s
    let t := add (mulPt 384 (hash * w % n) ⟨gx, gy, 1⟩) (mulPt 384 (r * w % n) ⟨qx, qy, 1⟩)
    if t.z = 0 then false
    else t.x * inv p (t.z * t.z % p) % p % n = r % n
  else false

end P384

/-- The 96 bytes of a signature over a 48-byte hash, r then s, big-endian. (DESIGN CHOICE, log 94). -/
def ecdsaSignHash (d k : Nat) (hash : List Byte) : List Byte :=
  let x := P384.sign d k (Sha.beNat hash)
  Sha.beBytes x.1 48 ++ Sha.beBytes x.2 48

/-- The signature of a message over its SHA-384. (DESIGN CHOICE, log 94). -/
def ecdsaSign (d k : Nat) (msg : List Byte) : List Byte := ecdsaSignHash d k (sha384 msg)

/-- Verify a 96-byte signature (r then s, big-endian) over SHA-384 of a message with a 97-byte uncompressed key.
(DESIGN CHOICE, log 94). -/
def ecdsaVerify (key msg sig : List Byte) : Bool :=
  key.length == 97 && sig.length == 96 && key.headD 0#8 == 0x04#8 &&
    P384.verify (Sha.beNat ((key.drop 1).take 48)) (Sha.beNat (key.drop 49)) (Sha.beNat (sha384 msg))
      (Sha.beNat (sig.take 48)) (Sha.beNat (sig.drop 48))

end Sys2Proof
end

