-- ==== Sys2Proof/Machine/Identity.lean ====
section
/-!
DEFINITION. The device identity (R402, R403): the key pair, the fingerprint, and what the factory wrote to configuration flash
(R396).
-/
namespace Sys2Proof.Machine

/-- The private key of the device identity key (R402). -/
def ownSecret : Nat := P384.scalar Config.identitySecret

/-- The public key as an uncompressed point: 0x04, then X, then Y. -/
def ownKey : List Byte :=
  let q := P384.baseMul ownSecret
  [0x04#8] ++ Sha.beBytes q.1 48 ++ Sha.beBytes q.2 48

/-- Signature number k of the device identity key over a message. (DESIGN CHOICE, log 94). -/
def ownSign (k : Nat) (msg : List Byte) : List Byte := ecdsaSign ownSecret (P384.scalar (Config.nonce k)) msg

/-- The module's own fingerprint: the SHA-384 of its identity public key (R316). -/
def ownFpr : List Byte := sha384 ownKey

/-- A DER SEQUENCE with these contents. -/
def derSeq (l : List Byte) : List Byte :=
  let n := l.length
  [0x30#8] ++ (if n < 0x80 then Sha.beBytes n 1 else if n < 0x100 then [0x81#8] ++ Sha.beBytes n 1
    else if n < 0x1_0000 then [0x82#8] ++ Sha.beBytes n 2 else [0x83#8] ++ Sha.beBytes n 3) ++ l

/-- The certificate chain (R402): the device certificate, whose subject key is the identity key, the device CA, the root CA.
Their other contents are free. (DESIGN CHOICE, log 62). -/
def factoryChain : List Byte :=
  derSeq (Config.certPart 0 ++ ownKey ++ Config.certPart 1) ++ derSeq (Config.certPart 2) ++ derSeq (Config.certPart 3)

/-- A byte of the flash regions that only the factory writes (R396): the certificate chain and the wrapped identity key. -/
def factoryByte (a : Nat) : Option Byte :=
  if 0x824_0000 ≤ a ∧ a < 0x825_0000 then some (factoryChain.getD (a - 0x824_0000) 0xFF)
  else if 0x825_0000 ≤ a ∧ a < 0x825_1000 then some (Config.wrappedKey (a - 0x825_0000))
  else none

end Sys2Proof.Machine
end

