-- ==== Sys2Proof/Machine/LightState.lean ====
section
/-!
DEFINITION. The state of the light path: pairs, planes and combs (R283 to R314).
-/
namespace Sys2Proof.Machine

/-- STATE of OPT_PAIR_STATE. -/
inductive PairState where
  | dark | acquire | test | up | hold | out
  deriving DecidableEq, Repr

def PairState.code : PairState → Nat
  | .dark => 0
  | .acquire => 1
  | .test => 2
  | .up => 3
  | .hold => 4
  | .out => 5

/-- A data frame in a replay buffer (R312): its sequence number, and for a relayed frame the pair it came in on
(plane, pair), to which a NOROUTE would go (R330); none for the module's own frames. -/
structure SentFrame where
  seq : BitVec 16
  frame : Frame
  relayedFrom : Option (PlaneId × PairId)
  deriving DecidableEq, Repr

/-- Where a ring searches for its line (R297, R301, R302): `span` about a heater value, in 0.1 GHz, or over its full range. -/
structure Search where
  centre : Option Int
  span : Nat
  deriving DecidableEq, Repr

/-- A lock seed of a ring (R297, R302): its heater value, and the optical-die temperature (OPT_DIE_TEMP) at which it was taken. -/
structure LockSeed where
  heater : BitVec 16
  temp : BitVec 16
  deriving DecidableEq, Repr

/-- A ring of a pair (R294): its heater and its lock error; the heater and OPT_DIE_TEMP of its last lock; where it searches now
(R301, R302); and its lock seed as configuration flash holds it (R297). -/
structure LightRing where
  heater : BitVec 16
  err : BitVec 16
  lastLock : LockSeed
  seek : Option Search
  seed : Option LockSeed
  deriving DecidableEq, Repr

def LightRing.reset : LightRing := ⟨0, 0, ⟨0, 0⟩, none, none⟩

/-- A resend that an event started (R309, R312): a NAK or the timeout, and the sequence numbers it covers, from `first` to before
`next`. (DEDUCED, log 61). -/
structure Resend where
  byNak : Bool
  first : BitVec 16
  next : BitVec 16
  deriving DecidableEq, Repr

/-- One lane pair (R285): its modulator ring `tx` and its drop ring `rx`. -/
structure Pair where
  state : PairState
  peerRx : BitVec 2
  holdCause : BitVec 2
  outMargin : Bool
  /-- The pair is OUT because it failed (R302): it retries every second, and its return sets PAIR_BACK. -/
  failed : Bool
  margin : Byte
  peerMargin : Byte
  testErr : W32
  fecCorr : W32
  fecUnc : W32
  crcErr : W32
  replayed : W32
  holds : W32
  tx : LightRing
  rx : LightRing
  /-- The consecutive loop updates with both rings within 1.5 GHz, 2 µs each (R301). -/
  calm : Nat
  /-- The symbol errors of the margin test that runs, as its codewords give them (R298). -/
  testCount : Nat
  /-- Light of the peer on the receive lane. -/
  light : Bool
  /-- Codeword lock, with the run of good and of bad codewords that decides it (R293). -/
  lock : Bool
  good : Nat
  bad : Nat
  /-- The bytes of lane data received since lane data was last discarded (R293); none if none was. -/
  clean : Option Nat
  /-- The last 16 codewords, newest first: uncorrectable or not (R300). -/
  recent : List Bool
  /-- Codewords left of the 100 µs after a pause marker (R300, R305). -/
  pauseLeft : Nat
  /-- Transmit side (R312, R313): the next sequence number, the replay buffer oldest first, the credits, the last CREDIT
  value seen, the start of a resend that still runs, how many of the newest unacknowledged frames still wait to be resent, and
  the last resend that an event started, while another event may be for the same frames. -/
  txSeq : BitVec 16
  unacked : List SentFrame
  credits : Nat
  lastCredit : Byte
  resent : Option (BitVec 16)
  toResend : Nat
  lastResend : Option Resend
  /-- Receive side: the next expected number, the buffers freed, what a control frame owes, the gap that the last NAK was for, and
  the codewords left of the 2 µs after it. -/
  rxNext : BitVec 16
  freed : Byte
  ackDue : Bool
  nakDue : Bool
  nakFor : Option (BitVec 16)
  nakWait : Nat
  deriving DecidableEq, Repr

def Pair.reset : Pair :=
  { state := .dark, peerRx := 0, holdCause := 0, outMargin := false, failed := false, margin := 0xFF,
    peerMargin := 0xFF, testErr := 0, fecCorr := 0, fecUnc := 0, crcErr := 0, replayed := 0, holds := 0,
    tx := .reset, rx := .reset, calm := 0, testCount := 0, light := false, lock := false, good := 0, bad := 0, clean := none,
    recent := [], pauseLeft := 0, txSeq := 0, unacked := [], credits := 32, lastCredit := 0, resent := none, toResend := 0,
    lastResend := none, rxNext := 0, freed := 0, ackDue := false, nakDue := false, nakFor := none, nakWait := 0 }

/-- The registers of one OPT block. `offset` is the feed-forward offset in force, a fraction of units of 0.1 GHz
(R295); `effort` holds the lock errors and slews of the last 1 ms, newest first. -/
structure Plane where
  run : Bool
  ffEn : Bool
  event : BitVec 6
  lockErrMax : BitVec 16
  slewMax : BitVec 16
  dieTemp : BitVec 16
  pairSel : PairId
  tune : Vector W32 16
  tuneN : BitVec 5
  offsetNum : Int
  offsetDen : Nat
  effort : List (Nat × Nat)
  deriving DecidableEq, Repr

def Plane.reset : Plane :=
  { run := false, ffEn := true, event := 0, lockErrMax := 0, slewMax := 0, dieTemp := 0, pairSel := 0,
    tune := Vector.replicate 16 0, tuneN := 0, offsetNum := 0, offsetDen := 1, effort := [] }

/-- A comb's state (R288). -/
inductive CombState where
  | off | idle | locking | locked | working | failed
  deriving DecidableEq, Repr

def CombState.code : CombState → Nat
  | .off => 0
  | .idle => 1
  | .locking => 2
  | .locked => 3
  | .working => 4
  | .failed => 5

/-- The CMB block. `below2` and `below1` count the consecutive estimates of each line below 2.0 and 1.0 dB (R305);
`pilots` says that start acquisition runs (R288). -/
structure Combs where
  active : Bool
  a : CombState
  b : CombState
  combNone : Bool
  marginMin : Byte
  worstLine : PairId
  switches : Byte
  event : BitVec 7
  power : Vector (BitVec 16) 32
  ref : Vector (BitVec 16) 32
  margin : Vector Byte 32
  below2 : Vector Nat 32
  below1 : Vector Nat 32
  pilots : Bool
  deriving DecidableEq, Repr

def Combs.reset : Combs :=
  { active := false, a := .off, b := .off, combNone := false, marginMin := 0xFF, worstLine := 0, switches := 0,
    event := 0, power := Vector.replicate 32 0, ref := Vector.replicate 32 0, margin := Vector.replicate 32 0xFF,
    below2 := Vector.replicate 32 0, below1 := Vector.replicate 32 0, pilots := false }

/-- The comb that the switch selects feeds the transmit buses (R288). -/
def Combs.lit (x : Combs) : Bool := (if x.active then x.b else x.a) == .working

/-- A frame put on a transmit lane: data frames carry their frame, control frames none (MODEL: the record of what
the module has sent, oldest first). -/
structure LaneFrame where
  plane : PlaneId
  pair : PairId
  header : LinkHeader
  frame : Option Frame
  deriving DecidableEq, Repr

/-- The light path of the module: pairs are kept by 32 * plane + pair. `pauses` records the pause-marker codewords that the lanes
sent (R305, MODEL), each with the number of frames sent before it. -/
structure Light where
  pairs : List (Nat × Pair)
  planes : Vector Plane 16
  combs : Combs
  sent : List LaneFrame
  pauses : List (PlaneId × PairId × Nat)
  deriving DecidableEq, Repr

def Light.reset : Light :=
  { pairs := [], planes := Vector.replicate 16 .reset, combs := .reset, sent := [], pauses := [] }

end Sys2Proof.Machine
end

