-- ==== Sys2Proof/Machine/BoardState.lean ====
section
/-!
DEFINITION. The state of the mesh and its field map, of the supply, the standby controller and the PWR block, of what survives
a module reset, and of the host complex: flash, boot, trust, SPDM and Ethernet (chapters 01, 13, 14 and 15).
-/
namespace Sys2Proof.Machine

/-! ### The mesh (R17 to R49) -/

/-- A set of tiles: bit p is tile p. -/
abbrev TileMap : Type := BitVec 1152

/-- A change of the field map (R35, R47, R405). -/
inductive FieldChange where
  | prune (p : TileId)
  | suspect (p : TileId)
  | clearField (l : List TileId)
  | clearSuspect
  deriving DecidableEq, Repr

/-- A router (R37): the packets in its input buffers with the port each came in by, in order of arrival, and for each output
the input last served. -/
structure Router where
  queue : List (Dir × Packet)
  last : Vector Nat 5
  deriving DecidableEq, Repr

def Router.reset : Router := ⟨[], Vector.replicate 5 0⟩

/-- A packet that left the router network: at the tile itself, or through the edge link to an attachment (R20). -/
structure Delivery where
  tile : TileId
  attachment : Option Attachment
  packet : Packet
  deriving DecidableEq, Repr

/-- The MESH block. `suspects` and `field` are as stored in flash; `bist` the tiles that failed at this start. `starting` holds
what this start's self-test found until the mesh opens; `write` is the field-map write in progress, `retry` the failed ones that
wait for their retry, oldest first, and `writeQueue` the runtime tile faults whose write waits. -/
structure Mesh where
  prune : TileMap
  field : TileMap
  bist : TileMap
  suspects : List TileId
  belowFloor : Bool
  edgeFail : Bool
  fieldMapLost : Bool
  fieldCopy : Bool
  fieldWriteFail : Bool
  tileFault : Bool
  sacrificed : Byte
  fieldSeq : W32
  write : Option FieldChange
  retry : List FieldChange
  writeQueue : List TileId
  starting : Option BringUp
  svcTile : BitVec 11
  svcCause : BitVec 3
  svcCount : Byte
  svcValid : Bool
  routers : List (Nat × Router)
  /-- MODEL: packets that left the mesh, oldest first: at a tile, or through an edge port. -/
  delivered : List Delivery
  deriving DecidableEq, Repr

def Mesh.reset : Mesh :=
  { prune := 0, field := 0, bist := 0, suspects := [], belowFloor := false, edgeFail := false, fieldMapLost := false,
    fieldCopy := false, fieldWriteFail := false, tileFault := false, sacrificed := 0, fieldSeq := 0, write := none,
    retry := [], writeQueue := [], starting := none, svcTile := 0, svcCause := 0, svcCount := 0, svcValid := false,
    routers := [], delivered := [] }

/-! ### Supply and standby controller (R415 to R422, R434 to R444) -/

/-- What the standby controller keeps, through every module reset: the pins PWR_EN and RESET_N, the supply above 36 V, the rail
sequence, PG, a latched fault, the slot straps as sampled, and its PMBus registers. -/
structure Standby where
  supply : Bool
  pwrEn : Bool
  inReset : Bool
  sequencing : Bool
  pg : Bool
  faultLatched : Bool
  slotId : BitVec 6
  /-- V_in at the blades as last measured, in 10 mV (R415, R439). -/
  vin : BitVec 16
  operation : Byte
  uvLimit : BitVec 16
  ovLimit : BitVec 16
  ocLimit : BitVec 16
  statusInput : Byte
  statusTemp : Byte
  statusMfr : Byte
  cml : Bool
  /-- The conditions of the bits of STATUS_INPUT that still hold. -/
  liveInput : Byte
  masks : List (Byte × Byte)
  i3cAddr : Option (BitVec 7)
  /-- The answer to the last PMBus command: acknowledged or not, and the bytes read. -/
  ack : Bool
  reply : List Byte
  deriving DecidableEq, Repr

/-- Powered from a nominal 50 V, out of reset, and nothing latched. The limits are the LINEAR11 words 0xE2D0 (45.0 V), 0xE370
(55.0 V) and 0xFA58 (300 A). (DESIGN CHOICE, log 14). -/
def Standby.reset : Standby :=
  { supply := true, pwrEn := true, inReset := false, sequencing := false, pg := true, faultLatched := false, slotId := 0,
    vin := 5000, operation := 0x80, uvLimit := 0xE2D0, ovLimit := 0xE370, ocLimit := 0xFA58, statusInput := 0,
    statusTemp := 0, statusMfr := 0,
    cml := false, liveInput := 0, masks := [], i3cAddr := none, ack := true, reply := [] }

/-! ### The PWR block (R416 to R433) -/

/-- The PWR block and the limiter. `below` counts consecutive samples at or below the rise threshold (R425); `optShutdown` says
that a thermal shutdown of optical cause darkened the transmit lanes (R431). -/
structure Power where
  lMod : BitVec 5
  below : Nat
  vinState : BitVec 2
  coolState : BitVec 2
  coolWarn : Bool
  flowLow : Bool
  trip : Bool
  shutdown : Bool
  optShutdown : Bool
  event : BitVec 10
  vin : BitVec 16
  iin : BitVec 16
  pin : BitVec 16
  cap : BitVec 14
  capEff : BitVec 14
  limitBy : BitVec 2
  blocks : Vector (BitVec 16) 5
  mainInlet : BitVec 16
  mainFlow : BitVec 16
  optInlet : BitVec 16
  optFlow : BitVec 16
  stretch : W32
  throttle : W32
  warnCount : W32
  dimmT : Vector (BitVec 16) 64
  deriving DecidableEq, Repr

def Power.reset : Power :=
  { lMod := 16, below := 0, vinState := 0, coolState := 0, coolWarn := false, flowLow := false, trip := false,
    shutdown := false, optShutdown := false, event := 0, vin := 0, iin := 0, pin := 0, cap := 15000, capEff := 15000, limitBy := 0,
    blocks := Vector.replicate 5 0, mainInlet := 0, mainFlow := 0, optInlet := 0, optFlow := 0, stretch := 0,
    throttle := 0, warnCount := 0, dimmT := Vector.replicate 64 0 }

/-! ### What survives a module reset besides (R23, R396 to R404) -/

/-- Configuration flash, and the fuses: the fuse map, the revoked key slots, the minimum SVN, the owner hash and the debug lock
(R406). Of the flash the
lock-seed region is held as what its two sequenced copies say, by 32 * plane + pair, of its modulator and its drop ring: the copy
written last, the other one, and which of them was written last. -/
structure NonVolatile where
  flash : List (Nat × Byte)
  seeds : List (Nat × Option LockSeed × Option LockSeed)
  oldSeeds : List (Nat × Option LockSeed × Option LockSeed)
  seedCopy : Bool
  fuse : TileMap
  revoked : BitVec 4
  minSvn : BitVec 6
  owner : Option (List Byte)
  debugLock : Bool
  deriving DecidableEq, Repr

/-- Rests on a choice of the model (DESIGN CHOICE, log 14). -/
def NonVolatile.reset : NonVolatile := ⟨[], [], [], false, 0, 0, 0, none, true⟩

/-! ### The host complex (R393 to R408) -/

/-- A 64-byte line of DDR in the caches of the harts, which are coherent among them and not with the device (R393, R394): what memory
held when the line was filled, what the harts see, and whether a hart has stored to it. One such line stands for its copies in the
private L2 caches and in the L3. -/
structure CacheLine where
  line : Nat
  seen : List Byte
  data : List Byte
  dirty : Bool
  deriving DecidableEq, Repr

/-- The HST boot and flash registers. `running` says that firmware runs on hart 0, `entry` where it was entered, with `a2` the
register of R444; bit h of `harts` says that hart h is held in reset (R393). -/
structure Boot where
  running : Bool
  harts : BitVec 16
  entry : Option Nat
  a2 : BitVec 64
  fwSlot : Bool
  fwFallback : Bool
  cfgSlot : Bool
  cfgFallback : Bool
  cfgNone : Bool
  bootFail : Bool
  fwSeq : W32
  fwSvn : BitVec 6
  cfgSeq : W32
  flashOff : BitVec 28
  flashLen : BitVec 28
  flashSrc : BitVec 48
  flashBusy : Bool
  flashDone : Bool
  flashErr : Bool
  /-- What the harts' caches hold of DDR (R394). -/
  lines : List CacheLine
  /-- The flash operation in progress: its first byte, its length, and the bytes it writes (none for an erase). -/
  flashOp : Option (Nat × Nat × Option (List Byte))
  deriving DecidableEq, Repr

def Boot.reset : Boot :=
  { running := false, harts := 0xFFFE, entry := none, a2 := 0, fwSlot := false, fwFallback := false, cfgSlot := false,
    cfgFallback := false, cfgNone := false,
    bootFail := false, fwSeq := 0, fwSvn := 0, cfgSeq := 0, flashOff := 0, flashLen := 0, flashSrc := 0, flashBusy := false,
    flashDone := false, flashErr := false, lines := [], flashOp := none }

/-- An entry of the measurement log (R406). -/
structure LogEntry where
  index : Nat
  extend : Bool
  seq : W32
  digest : List Byte
  deriving DecidableEq, Repr

/-- The SEC block. `busy` while an accepted maintenance command's field-map write runs. Measurement registers by index - 1. -/
structure Sec where
  addr : BitVec 48
  busy : Bool
  logFull : Bool
  reason : BitVec 4
  event : BitVec 3
  nonce : W64
  log : List LogEntry
  meas : Vector (List Byte) 10
  measSel : BitVec 4
  deriving DecidableEq, Repr

/-- The nonce after reset is random: a free value. -/
def Sec.reset : Sec :=
  { addr := 0, busy := false, logFull := false, reason := 0, event := 0, nonce := Config.freeValue 0, log := [],
    meas := Vector.replicate 10 (List.replicate 48 0), measSel := 0 }

/-- A response of the SPDM responder (R408), as what it carries: the external message layouts are those of SPDM 1.2. -/
inductive SpdmResponse where
  | version (entries : List (BitVec 16))
  | capabilities (flags : W32)
  | algorithms (asym hash : W32)
  | digests (chain : List Byte)
  | certificate (portion : List Byte) (remainder : Nat)
  | challengeAuth (chain nonce : List Byte) (sig : List Byte)
  | measurements (blocks : List (Nat × List Byte)) (nonce : List Byte) (sig : List Byte)
  | unsupportedRequest
  deriving DecidableEq, Repr

/-- The responder: whether a connection is open, and its last response. -/
structure Spdm where
  isOpen : Bool
  response : Option SpdmResponse
  deriving DecidableEq, Repr

def Spdm.reset : Spdm := ⟨false, none⟩

/-! ### Ethernet (R409 to R413) -/

/-- A ring. `sinceSig` counts completions since the last signal; `xoff` is the PFC state sent for its priority. -/
structure Ring where
  base : BitVec 48
  size : BitVec 5
  head : BitVec 16
  tail : BitVec 16
  pos : W64
  sig : W32
  every : BitVec 16
  sigAddr : BitVec 48
  sinceSig : Nat
  xoff : Bool
  deriving DecidableEq, Repr

def Ring.reset : Ring := ⟨0, 0, 0, 0, 0, 0, 0, 0, 0, false⟩

/-- What a port has put on its link (MODEL: the record of what the module sent): a frame without its FCS, or the PFC state of a
priority. -/
inductive EthSent where
  | frame (bytes : List Byte)
  | pfc (priority : Nat) (xoff : Bool)
  deriving DecidableEq, Repr

/-- A port: receive rings 0 to 7, transmit ring 8. `present` says that a pluggable sits in the cage and `deciwatts` what it
declares; `held` that firmware holds it in reset, `lowPower` that it holds it in low-power mode, and `txDisable` the SFP28 line
(R448). Bit i of `paused` says that the link partner has paused priority i (R409). -/
structure EthPort where
  run : Bool
  pfcEn : BitVec 8
  fec : BitVec 2
  link : Bool
  present : Bool
  deciwatts : Nat
  held : Bool
  lowPower : Bool
  txDisable : Bool
  paused : BitVec 8
  event : BitVec 4
  rxFrames : W32
  rxFcs : W32
  rxNobuf : W32
  txFrames : W32
  fecCorr : W32
  fecUnc : W32
  sigLost : W32
  rings : Vector Ring 9
  sent : List EthSent
  deriving DecidableEq, Repr

def EthPort.reset : EthPort :=
  { run := false, pfcEn := 0, fec := 0, link := false, present := false, deciwatts := 0, held := true, lowPower := true,
    txDisable := true, paused := 0, event := 0, rxFrames := 0, rxFcs := 0, rxNobuf := 0, txFrames := 0,
    fecCorr := 0, fecUnc := 0, sigLost := 0,
    rings := Vector.replicate 9 .reset, sent := [] }

/-! ### Interrupts (R395, R453) -/

/-- One domain of the APLIC, with its registers as RISC-V AIA 1.0 has them: the IE bit of domaincfg, sourcecfg and target by
source, the pending and the enabled bits, genmsi, and the rectified inputs as they were last seen (MODEL). -/
structure Aplic where
  ie : Bool
  sourcecfg : Vector (BitVec 11) 64
  target : Vector W32 64
  ip : BitVec 64
  enabled : BitVec 64
  rectified : BitVec 64
  genmsi : W32
  deriving DecidableEq, Repr

/-- Rests on a choice of the model (PRESUMED, log 106). -/
def Aplic.reset : Aplic :=
  { ie := false, sourcecfg := Vector.replicate 64 0, target := Vector.replicate 64 0, ip := 0, enabled := 0, rectified := 0,
    genmsi := 0 }

/-- An interrupt file of an IMSIC: the pending and the enabled bits by identity, eidelivery and eithreshold. -/
structure Imsic where
  eip : BitVec 2048
  eie : BitVec 2048
  delivery : W32
  threshold : W32
  deriving DecidableEq, Repr

/-- Rests on a choice of the model (PRESUMED, log 106). -/
def Imsic.reset : Imsic := ⟨0, 0, 0, 0⟩

/-- The interrupt controllers of the host complex: the two domains, and the two interrupt files of each hart. -/
structure Irq where
  machine : Aplic
  supervisor : Aplic
  mFiles : Vector Imsic 16
  sFiles : Vector Imsic 16
  deriving DecidableEq, Repr

def Irq.reset : Irq := ⟨.reset, .reset, Vector.replicate 16 .reset, Vector.replicate 16 .reset⟩

end Sys2Proof.Machine
end

