-- ==== Sys2Proof/Machine/FabricState.lean ====
section
/-!
DEFINITION. The state of the fabric port: the peer map, the plan and the join, and the open collectives (R316 to R352).
-/
namespace Sys2Proof.Machine

/-- The map entry of a data pair (R317, R318). `cand` is a new fingerprint seen once; the nonces are those of R316. -/
structure MapEntry where
  valid : Bool
  conflict : Bool
  auth : Bool
  peer : Nat
  cand : List Byte
  nonceTx : Option (List Byte)
  nonceRx : List Byte
  deriving DecidableEq, Repr

def MapEntry.reset : MapEntry := ⟨false, false, false, 0, [], none, []⟩

/-- The fabric's share of a launch (R325 to R330): the plan in use, the member's plan rank, its present mask and the
relays present at acceptance, the masks of JOIN and CONFIRM messages by plan rank, J once formed, the grafts whose
weight a NOROUTE made 0 (destination plan rank, relay record), and the round-robin credit of each path by destination plan
rank. -/
structure Join where
  plan : List Byte
  copy1 : Bool
  rank : Nat
  present : W32
  relays : W32
  joins : List (Nat × W32)
  confirms : List (Nat × W32)
  j : Option W32
  joined : Bool
  deadGrafts : List (Nat × Nat)
  wrr : List (Nat × List Int)
  deriving DecidableEq, Repr

/-- What a member of a collective gave for a block: none for a block it skipped. -/
structure WireBlock where
  scale : Nat
  codes : List Nat
  nonfin : Bool
  deriving DecidableEq, Repr

/-- A contribution in the staging area (R340): its block, its source rank, its slot and what it gives; a skip takes no slot. -/
structure Staged where
  block : Nat
  src : Nat
  slot : Nat
  given : Option WireBlock
  deriving DecidableEq, Repr

/-- A row in the staging area, one to a slot (R345). -/
structure StagedRow where
  row : Nat
  src : Nat
  slot : Nat
  codes : List Nat
  deriving DecidableEq, Repr

/-- One path to a member: its weight by the plan and its first-hop pairs; `graft` tells the relay record (R329). -/
structure Path where
  weight : Nat
  hops : List (PlaneId × PairId)
  graft : Option Nat
  deriving DecidableEq, Repr

/-- A COLL in the PORT queue whose record has not been read: it waits for the join (R326). -/
structure WaitColl where
  p : TileId
  sd : BitVec 5
  addr : Nat
  te : Option (BitVec 6)
  issueNo : Nat
  pc : BitVec 48
  word : BitVec 64
  deriving DecidableEq, Repr

/-- An open collective (R335 to R348). `record` is its 64 bytes; `members` are job ranks in ascending order; `group` is
the header's GROUP, 0x80 + partner for PUT and GET; `pc` and `word` are those of its COLL. -/
structure Coll where
  p : TileId
  te : Option (BitVec 6)
  issueNo : Nat
  pc : BitVec 48
  word : BitVec 64
  group : Nat
  number : Nat
  kind : Nat
  record : List Byte
  /-- The areas it writes: start and length. -/
  dests : List (Nat × Nat)
  members : List Nat
  own : Nat
  /-- Frames sent whose acknowledgement has not come (destination, FIDX), and the next FIDX of each destination. -/
  unacked : List (Nat × Nat)
  nextF : List (Nat × Nat)
  /-- Frames received (source, FIDX), and the sources whose message is closed with the number of its frames. -/
  seen : List (Nat × Nat)
  ends : List (Nat × Nat)
  /-- PUT: the grant has come and the data is sent. -/
  started : Bool
  /-- RSCAT, as a source: the blocks given, those not yet sent in order, and the bound granted by each owner. -/
  accounted : List Nat
  offered : List (Nat × Option WireBlock)
  grants : List (Nat × Nat)
  /-- RSCAT, as an owner: the contributions staged, the blocks reduced and of these the empty ones, and the units handed
  over. -/
  contrib : List Staged
  reduced : List Nat
  empties : List Nat
  handed : List Nat
  /-- SROW: rows of the own list left to give with their codes, rows given to each owner, the owners an END has gone to, the
  rows staged, those that came by frame (source, FIDX, row), the rows of each source reduced, the rows written (local numbers),
  and whether the row list is written. -/
  rowsLeft : List (Nat × List Nat)
  rowsSent : List (Nat × Nat)
  endsSent : List Nat
  rowsIn : List StagedRow
  rowsGot : List (Nat × Nat × Nat)
  rowsDone : List (Nat × Nat)
  rowsOut : List Nat
  listed : Bool
  deriving DecidableEq, Repr

/-- The fabric of the module: the peer table, the peer map by 32 * plane + pair, the registers of the FAB common block
and of the plane blocks, messages held before acceptance (R467), and the running launch's share. -/
structure Fabric where
  peers : List (List Byte)
  map : List (Nat × MapEntry)
  mapReady : Bool
  mapConflict : Bool
  planErrSub : BitVec 4
  planErrRecord : BitVec 5
  planErrValid : Bool
  discard : W32
  noroute : W32
  resent : W32
  rimOwn : W32
  rimForeign : W32
  peerSel : BitVec 6
  txFrames : Vector W32 16
  rxFrames : Vector W32 16
  relayed : Vector W32 16
  heldJoins : List JoinMsg
  heldConfirms : List ConfirmMsg
  job : Option Join
  /-- Collective numbers per group, and per ordered pair of job ranks for PUT (true) and GET. -/
  groupCtr : Vector Nat 16
  pairCtr : List (Bool × Nat × Nat)
  waiting : List WaitColl
  colls : List Coll
  /-- Frames that arrived before their collective was issued, and frames that wait for a path with credit, by
  destination plan rank. -/
  early : List Frame
  backlog : List (Nat × Frame)
  /-- The graft frames that this launch has sent, which a NOROUTE may name (R330), and the launch that ended last: its tag and its
  share, by which its frames are still resent (R302). -/
  grafted : List Frame
  ended : Option (BitVec 16 × Join)
  /-- Graft frames that wait for a pair with credit, with the pair they came in on, and the tag last served on the rim (R331). -/
  relayWait : List (PlaneId × PairId × Frame)
  rimTag : BitVec 16
  /-- Frames of an ended launch that wait for a pair with credit, with the paths of its plan. -/
  directWait : List (List Path × Frame)
  /-- KIND 8 messages: the frames received of messages still incomplete, those delivered (SRC, FIDX), and the next FIDX of each
  destination. -/
  parts : List Frame
  seen8 : List (BitVec 8 × BitVec 32)
  next8 : List (Nat × Nat)
  deriving DecidableEq, Repr

def Fabric.reset : Fabric :=
  { peers := [], map := [], mapReady := false, mapConflict := false, planErrSub := 0, planErrRecord := 0,
    planErrValid := false, discard := 0, noroute := 0, resent := 0, rimOwn := 0, rimForeign := 0, peerSel := 0,
    txFrames := Vector.replicate 16 0, rxFrames := Vector.replicate 16 0, relayed := Vector.replicate 16 0,
    heldJoins := [], heldConfirms := [], job := none, groupCtr := Vector.replicate 16 0, pairCtr := [],
    waiting := [], colls := [], early := [], backlog := [], grafted := [], ended := none, relayWait := [], rimTag := 0, directWait := [], parts := [],
    seen8 := [], next8 := [] }

end Sys2Proof.Machine
end

