-- ==== Sys2Proof/Machine/RoutingState.lean ====
section
/-!
DEFINITION. The state of the assigner (R243, R244, R251).
-/
namespace Sys2Proof.Machine

/-- A routing call in the assigner's queue: the issuing tile, its issue number (MODEL), the call block, ev, the tally, and the
PC and word of its RASSIGN. -/
structure RtuCall where
  p : TileId
  issueNo : Nat
  block : Nat
  ev : Bool
  t : BitVec 6
  pc : BitVec 48
  word : BitVec 64
  deriving DecidableEq, Repr

/-- The RTU block. -/
structure Rtu where
  calls : List RtuCall
  stepSat : Bool
  done : W32
  choices : W32
  nulls : W32
  skips : W32
  evcalls : W32
  errTile : BitVec 11
  errCause : Byte
  errValid : Bool
  loopLayers : BitVec 13
  deriving DecidableEq, Repr

def Rtu.reset : Rtu :=
  { calls := [], stepSat := false, done := 0, choices := 0, nulls := 0, skips := 0, evcalls := 0, errTile := 0,
    errCause := 0, errValid := false, loopLayers := 0 }

end Sys2Proof.Machine
end

