-- ==== Sys2Proof/Machine/StatRecord.lean ====
section
/-!
DEFINITION. The drain statistics record (R101).
-/
namespace Sys2Proof.Machine

/-- The drain statistics record (R101). -/
structure StatRec where
  hist : Vector W32 16
  maxabs : W64
  zeros : W32
  nonfin : W32
  count : W32
  hbase : BitVec 16
  binw : Byte
  deriving DecidableEq, Repr

/-- Rests on a choice of the model (DESIGN CHOICE, log 15). -/
def StatRec.empty : StatRec := ⟨Vector.replicate 16 0, 0, 0, 0, 0, 0, 0⟩

end Sys2Proof.Machine
end

