-- ==== Sys2Proof/Machine/StepsState.lean ====
section
/-!
DEFINITION. The state of steps and commits, of the update engines' requests and stash, of the health monitor and of
the amber sets (R278 to R280, R356 to R391).
-/
namespace Sys2Proof.Machine

/-- One unit of an update request on its way through its engine (R278): the tile and instruction it answers (none for
a collective), the group, the unit, the address of its gradient, the attempt it counts to, and whether a check pass has
formed its values (R364). -/
structure UpdUnit where
  owner : Option (TileId × Nat)
  te : Option (BitVec 6)
  grp : Nat
  unit : Nat
  gaddr : Nat
  attempt : W32
  checked : Bool
  deriving DecidableEq, Repr

/-- A stashed unit (R279): its group and unit, the bytes it takes, and what its local tensors and its stamp held. -/
structure StashEntry where
  channel : Nat
  grp : Nat
  unit : Nat
  size : Nat
  old : List (Nat × Byte)
  deriving DecidableEq, Repr

/-- A copy of a stripe held for a peer (R378 to R380), by the plan rank of its owner: it is lost to R384 at a module
reset. -/
structure HeldStripe where
  rank : Nat
  seq : W32
  index : Nat
  bytes : List Byte
  isSealed : Bool
  deriving DecidableEq, Repr

/-- The own image of one slot index (R376, R377, R380): its SEQ and STATE, the header's T, the image, the stripes acknowledged
and the stripes refused once (holder and index), and whether SEAL has been sent. -/
structure Slot where
  seq : W32
  state : BitVec 2
  t : W32
  image : List Byte
  acks : List (BitVec 8 × Nat)
  refused : List (BitVec 8 × Nat)
  sealedOwn : Bool
  deriving DecidableEq, Repr

def Slot.empty : Slot := ⟨0, 0, 0, [], [], [], false⟩

/-- The health monitor's registers and what it compares with (R372 to R375). -/
structure Health where
  run : Bool
  state : BitVec 3
  risk : BitVec 10
  worst : BitVec 4
  event : Byte
  smA : W32
  smB : W32
  smC : W32
  inputs : Vector (BitVec 16) 12
  r : Vector (BitVec 10) 12
  w : Vector Byte 12
  curve : Vector W32 192
  /-- MODEL: a SECURE_NOW that no securing has answered (R375); consecutive evaluations at or above SECURE_ON, evaluations left in COOLDOWN, and the first evaluation
  still to come. -/
  asked : Bool
  above : Nat
  cooldown : Nat
  first : Bool
  /-- Counts since the last evaluation: corrected accesses of each port, droop stretches, HOLD entries, PMBus warnings;
  and the temperatures sampled then. -/
  ceCount : List (Nat × Nat)
  stretches : Nat
  holds : Nat
  warns : Nat
  lastTj : List (Nat × BitVec 16)
  lastDie : Vector (BitVec 16) 16
  deriving DecidableEq, Repr

def Health.reset : Health :=
  { run := false, state := 0, risk := 0, worst := 0, event := 0, smA := 0, smB := 0, smC := 0,
    inputs := Vector.replicate 12 0, r := Vector.replicate 12 0, w := Vector.replicate 12 0,
    curve := Vector.replicate 192 0, asked := false, above := 0, cooldown := 0, first := true, ceCount := [], stretches := 0,
    holds := 0, warns := 0, lastTj := [], lastDie := Vector.replicate 16 0 }

/-- PHASE of HMN_COMMIT. -/
inductive Phase where
  | idle | stepping | arrived | gateClear | gateVetoed | evaluating | restoring
  deriving DecidableEq, Repr

/-- The steps of the running launch and the amber sets of the module. -/
structure Steps where
  t : W32
  a : W32
  k : W32
  phase : Phase
  /-- The non-finite flags of the current attempt and of the next (R363). -/
  nf : Bool
  nfNext : Bool
  digest : Bool
  nfMask : W32
  /-- COMMIT messages of the current commit and early ones of the next, the own one included. -/
  msgs : List CommitMsg
  /-- Step commits since the last completed slot, and completed slots. -/
  sinceSlot : Nat
  doneSlots : Nat
  digests : List W64
  /-- Statistics merges that arrived after the own records were read for the commit (R129): address and record. -/
  lateMerges : List (Nat × StatRec)
  units : List UpdUnit
  stash : List StashEntry
  /-- Amber sets: the own slots, the SEQ of the last securing, the copies held, the SEAL messages seen (plan rank, SEQ, the
  image's stripes), the last manifest. -/
  slots : Vector Slot 2
  secSeq : W32
  held : List HeldStripe
  seals : List (Nat × W32 × Nat)
  manifest : List Byte
  /-- The inventories of a restore, the slot chosen, and its registers. -/
  invs : List InvMsg
  chosen : Option W32
  restoreSeq : W32
  restoreCause : BitVec 4
  restoreDigest : BitVec 12
  digestSel : BitVec 12
  deriving DecidableEq, Repr

def Steps.reset : Steps :=
  { t := 0, a := 0, k := 0, phase := .idle, nf := false, nfNext := false, digest := false, nfMask := 0,
    msgs := [], sinceSlot := 0, doneSlots := 0, digests := [], lateMerges := [], units := [], stash := [],
    slots := Vector.replicate 2 .empty, secSeq := 0, held := [], seals := [], manifest := [], invs := [], chosen := none,
    restoreSeq := 0, restoreCause := 0, restoreDigest := 0, digestSel := 0 }

end Sys2Proof.Machine
end

