-- ==== Sys2Proof/Machine/State.lean ====
section
/-!
DEFINITION. The state of one OXV-P1152 module: everything the spec gives it, as plain data, the queue of waiting
commands, and the state after module reset. Fields that are the model's own are marked MODEL.
-/
namespace Sys2Proof.Machine

/-- Why a step stops. -/
inductive Fault where
  /-- Raised by `DDR_READ`, `DDR_WRITE` and `PATROL_SCRUB` at an address outside fitted DDR, which the spec says does
  not exist (R452). Safe: no claim about a next state covers such an access. -/
  | notFittedDdr
  deriving DecidableEq, Repr

/-- Why a step answers no meaning. -/
inductive Refusal where
  /-- Raised by an arm of `exec` whose command has no meaning yet. Safe. -/
  | notModelled (mnemonic : String)
  deriving DecidableEq, Repr

/-! ### The part -/

/-- The memory code MMM of the ordering code (R1, R253): 64, 128 or 256 GiB per channel. -/
inductive MemCode where
  | c04T | c08T | c16T
  deriving DecidableEq, Repr

/-- The speed grade (R1). -/
inductive Grade where
  | a | b
  deriving DecidableEq, Repr

/-- The ordering code of the module (R1), and whether the cooling loops carry PG25 rather than water (R432).
(DESIGN CHOICE, log 14). -/
structure Part where
  mem : MemCode
  grade : Grade
  pg25 : Bool
  deriving DecidableEq, Repr

/-! ### Tiles -/

/-- STATE of TLE_SEQ_STATE. -/
inductive SeqState where
  | idle | issuing | inWaitt | atMark | halted | faulted | drained
  deriving DecidableEq, Repr

/-- TLE_FAULT and the four registers that go with it. -/
structure FaultRec where
  valid : Bool
  hardware : Bool
  cause : Byte
  pc : BitVec 48
  insn : W64
  deriving DecidableEq, Repr

def FaultRec.none : FaultRec := ⟨false, false, 0, 0, 0⟩

/-- A held un-entered item (R165): its list and index, the sd and the revoke target of its CLAIM, and the issue
number of that CLAIM (MODEL: orders R166 and R168). -/
structure HeldItem where
  list : BitVec 12
  index : W32
  sd : BitVec 5
  target : W64
  claimAt : Nat
  deriving DecidableEq, Repr

/-- A CLAIM or CLAIM2 issued whose reply has not arrived (R164). `granted` is none until it reaches the atomic unit. -/
structure OutClaim where
  list : BitVec 12
  pair : Bool
  sd : BitVec 5
  dest : Nat
  target : W64
  claimAt : Nat
  granted : Option (List W32)
  deriving DecidableEq, Repr

/-- The target of a signal (R158). -/
inductive SignalTarget where
  | tally (dst : TileId) (t : BitVec 6)
  | memory (addr : Nat)
  | host (t : BitVec 6)
  deriving DecidableEq, Repr

/-- A signal that has been issued and has not been counted: `sent` is false while rel = 1 holds it; `issueNo` is its
issue number (MODEL). -/
structure OutSignal where
  target : SignalTarget
  value : W32
  sent : Bool
  issueNo : Nat
  deriving DecidableEq, Repr

/-- A validated descriptor record (R201). -/
structure Desc where
  rank : Nat
  etype : BitVec 5
  wr : Bool
  pair : Bool
  padWrite : Bool
  space1 : Bool
  fold : Nat
  brows : Nat
  base : Nat
  rbase : Nat
  rlen : Nat
  sbase : Nat
  half : Nat
  win : List W32
  padv : Nat
  size : Vector Nat 6
  padlo : Vector Nat 6
  padhi : Vector Nat 6
  stride : Vector Int 6
  deriving DecidableEq, Repr

/-- A descriptor handle: its binding, if valid, and its half bit H (R200, R218). -/
structure Handle where
  desc : Option Desc
  half : Bool
  deriving DecidableEq, Repr

/-- An instruction of the SMEM or PORT queue that has issued and not started (R149, R150): itself, its queue, the register that it has
yet to write, and what it read at issue: the registers, the handles, the PC and its issue number (MODEL). `arms` lists the read and
write slots that it armed, `halves` the halves of paired handles that it names, each with whether it writes.
(DESIGN CHOICE, log 12). -/
structure Waiting where
  instr : Instr
  port : Bool
  dest : Option (BitVec 5)
  arms : List (BitVec 3 × Bool)
  halves : List (BitVec 4 × Bool × Bool)
  regs : Vector W64 32
  handles : Vector Handle 16
  pc : W64
  issueNo : Nat
  deriving DecidableEq, Repr

/-- What a FIRST or MIDDLE pass left at the address of one of its totals (MODEL): the bytes written, the tile, the descriptor and half
that it streamed, its origin in the reduction, and the bytes that it streamed. (DEDUCED, log 101). -/
structure RawTotal where
  value : List Byte
  tile : TileId
  desc : Option Desc
  half : Bool
  origin : Nat
  read : List (Nat × Byte)
  deriving DecidableEq, Repr

/-- A window of a latched descriptor: the half used and the view origins and extents. -/
structure Window where
  desc : Desc
  handle : BitVec 4
  half : Bool
  a : Nat
  b : Nat
  len0 : Nat
  len1 : Nat
  deriving DecidableEq, Repr

/-- A transfer armed by SARM or COPY (R219, R220): source, destination, turned, the write slot of a COPY, the tally of
a SARM, and its issue number (MODEL: orders the pair interlock and R168). -/
structure Transfer where
  src : Window
  dst : Window
  turned : Bool
  wslot : Option SlotId
  tally : Option (BitVec 6)
  armedAt : Nat
  deriving DecidableEq, Repr

/-- A write slot armed for a fabric send (R216, R343): the group and collective served, the wire type, the next
element, and the shard blocks already handed over. -/
structure FabricSend where
  group : BitVec 8
  coll : BitVec 32
  etype : BitVec 5
  next : Nat
  last : Nat
  deriving DecidableEq, Repr

/-- What a write slot holds. -/
inductive WSlot where
  | idle
  | copy
  | fabric (f : FabricSend)
  deriving DecidableEq, Repr

/-- A lane generator (R193). -/
structure Lane where
  key : W64
  c0 : W32
  c1 : W32
  c2 : W32
  c3 : W32
  deriving DecidableEq, Repr

/-- A DSTAT merge on its way to an atomic unit (R265). -/
structure StatMerge where
  issueNo : Nat
  adapter : Bool
  addr : Nat
  record : StatRec
  deriving DecidableEq, Repr

/-- A loaded stationary block (R83): operand type and x[n][k] with its block scales, as exact values. -/
structure Stationary where
  etype : BitVec 5
  klen : Nat
  nlen : Nat
  x : List (List FVal)
  deriving DecidableEq, Repr

/-- The registers of TLE_ARR (R109): the counters and the rows. -/
structure ArrCounters where
  freeze : W32
  sat : W32
  nannum : W32
  nonfin : W32
  rows : W32
  deriving DecidableEq, Repr

/-- The counters of TLE_VEC. -/
structure VecCounters where
  invalid : W32
  divzero : W32
  sat : W32
  nannum : W32
  nonfin : W32
  stall : W32
  genWrap : W32
  deriving DecidableEq, Repr

/-- The counters of TLE_STRM and TLE_DESC_ERR. -/
structure StrmRegs where
  rearm : W32
  pairwait : W32
  racc : W32
  wacc : W32
  errHandle : BitVec 4
  errDim : BitVec 3
  errCause : Byte
  errValid : Bool
  deriving DecidableEq, Repr

/-- The registers of TLE_RTF, and the biases of one layer that the routing front caches: the layer and their codes (R235). -/
structure RtfRegs where
  layer : BitVec 12
  tokens : W32
  nonfin : W32
  bias : Option (Nat × List Nat)
  deriving DecidableEq, Repr

/-- TLE_THERM and the tile's clock counters (R426 to R429), but for L_EFF, which is min(L_mod, L_therm). `row` is the row of
R428's table that L_therm stands at, the slope rule aside; `below` counts samples 1.0 °C or more under that row's lower edge,
`hot` consecutive samples at or above 105 °C; `history` holds the last samples, newest first. -/
structure Therm where
  tj : BitVec 16
  lTherm : BitVec 5
  slope : Bool
  trip : Bool
  hold : W32
  stretch : W32
  row : Nat
  below : Nat
  hot : Nat
  history : List (BitVec 16)
  deriving DecidableEq, Repr

/-- One tile. -/
structure Tile where
  regs : Vector W64 32
  pc : W64
  state : SeqState
  waitT : BitVec 6
  waitTarget : W32
  waitMk : Bool
  fault : FaultRec
  held : List HeldItem
  claims : List OutClaim
  /-- The instructions of the SMEM and PORT queues that have not started, in issue order (R149). -/
  waiting : List Waiting
  /-- The sd of every COLL that waits in the PORT queue (R335). -/
  collWait : List (BitVec 5)
  /-- The reply to an enter request: none before it arrives, then whether the item enters (R167). -/
  enterAnswer : Option Bool
  enterRequested : Bool
  issued : W32
  wait : W32
  qfull : W32
  enter : W32
  tallies : Vector W32 64
  signals : List OutSignal
  /-- MODEL: the number of instructions issued since launch, and the numbers of the last dependence mark and the last
  write-class instruction (R166, R168). -/
  issueNo : Nat
  markAt : Nat
  writeAt : Nat
  stationary : Option Stationary
  adapter : Option Stationary
  mainCfg : Vector Byte 32
  adpCfg : Vector Byte 32
  mainStat : StatRec
  adpStat : StatRec
  arr : ArrCounters
  turnWait : W32
  lanes : Vector Lane 64
  genSel : BitVec 6
  vec : VecCounters
  handles : Vector Handle 16
  rslots : Vector (Option Transfer) 8
  wslots : Vector WSlot 8
  strm : StrmRegs
  /-- DSTAT merges on their way to an atomic unit (R265): issue number, adapter drain or main, target, record. -/
  statMerges : List StatMerge
  /-- MODEL: the issue numbers of RASSIGN, UPDT, COLL and fabric sends that have not completed (what FENCE, HALT and
  rel = 1 wait for). -/
  portWork : List Nat
  rtf : RtfRegs
  therm : Therm
  deriving DecidableEq, Repr

/-- Rests on a choice of the model (DESIGN CHOICE, log 15). -/
def Handle.reset : Handle := ⟨none, false⟩
/-- Rests on a choice of the model (DESIGN CHOICE, log 15). -/
def Lane.reset : Lane := ⟨0, 0, 0, 0, 0⟩
def ArrCounters.zero : ArrCounters := ⟨0, 0, 0, 0, 0⟩
def VecCounters.zero : VecCounters := ⟨0, 0, 0, 0, 0, 0, 0⟩
def StrmRegs.zero : StrmRegs := ⟨0, 0, 0, 0, 0, 0, 0, false⟩
def Therm.reset : Therm := ⟨0, 16, false, false, 0, 0, 0, 0, 0, []⟩

/-- A tile after module reset: every register at the reset value of its table. (DESIGN CHOICE, log 15). -/
def Tile.reset : Tile :=
  { regs := Vector.replicate 32 0, pc := 0, state := .idle, waitT := 0, waitTarget := 0, waitMk := false,
    fault := .none, held := [], claims := [], waiting := [], collWait := [], enterAnswer := none, enterRequested := false,
    issued := 0, wait := 0, qfull := 0, enter := 0, tallies := Vector.replicate 64 0, signals := [],
    issueNo := 0, markAt := 0, writeAt := 0, stationary := none, adapter := none,
    mainCfg := Vector.replicate 32 0, adpCfg := Vector.replicate 32 0,
    mainStat := .empty, adpStat := .empty, arr := .zero, turnWait := 0,
    lanes := Vector.replicate 64 Lane.reset, genSel := 0, vec := .zero,
    handles := Vector.replicate 16 Handle.reset, rslots := Vector.replicate 8 none,
    wslots := Vector.replicate 8 .idle, strm := .zero, statMerges := [],
    portWork := [],
    rtf := ⟨0, 0, 0, none⟩, therm := .reset }

/-! ### Memory ports -/

/-- A port's memory registers, gather-pool counters and update-engine counters. `resident` lists the lines in the
atomic unit, most recently used first (R264). MEM_POISON is the number of poisoned lines of the channel. -/
structure Port where
  trained : Bool
  trainFail : Bool
  retrain : Bool
  rank : BitVec 3
  resident : List Nat
  ce : W32
  ceDev : BitVec 4
  ceRank : BitVec 4
  ue : W32
  ueAddr : BitVec 48
  ueValid : Bool
  retrains : W32
  mergeErr : BitVec 16
  mergeAddr : BitVec 48
  gplRows : W32
  gplOor : W32
  gplBags : W32
  updUnits : W32
  updCatchup : W32
  updStashed : W32
  updNonfin : W32
  updRestored : W32
  updStamperr : W32
  deriving DecidableEq, Repr

def Port.reset : Port :=
  { trained := false, trainFail := false, retrain := false, rank := 0, resident := [], ce := 0, ceDev := 0,
    ceRank := 0, ue := 0, ueAddr := 0, ueValid := false, retrains := 0, mergeErr := 0, mergeAddr := 0,
    gplRows := 0, gplOor := 0, gplBags := 0, updUnits := 0, updCatchup := 0, updStashed := 0, updNonfin := 0,
    updRestored := 0, updStamperr := 0 }

/-! ### The launch -/

/-- The launch and revoke registers of the HST block. `pendingEnd` is the highest-ranked ending met so far (R148),
which LAUNCH_IDLE writes to END (MODEL). -/
structure LaunchRegs where
  run : Bool
  st : BitVec 2
  refuse : Byte
  endCode : BitVec 3
  doneIrq : Bool
  endIrq : Bool
  writeWhileRun : Bool
  cancelSeen : Bool
  entry : BitVec 48
  param : BitVec 48
  first : BitVec 11
  count : BitVec 11
  doneTally : BitVec 6
  doneCount : W32
  faultTile : BitVec 11
  faultCause : Byte
  faultHardware : Bool
  faultValid : Bool
  seq : W32
  revokeBound : W32
  revokeResult : W32
  revokeBusy : Bool
  revokeErr : Bool
  revokeDone : Bool
  pendingEnd : BitVec 3
  /-- MODEL: the completion tally has reached its count in this launch (R147). -/
  completed : Bool
  deriving DecidableEq, Repr

def LaunchRegs.reset : LaunchRegs :=
  { run := false, st := 0, refuse := 0, endCode := 0, doneIrq := false, endIrq := false, writeWhileRun := false,
    cancelSeen := false, entry := 0, param := 0, first := 0, count := 0, doneTally := 0, doneCount := 0,
    faultTile := 0, faultCause := 0, faultHardware := false, faultValid := false, seq := 0, revokeBound := 0,
    revokeResult := 0, revokeBusy := false, revokeErr := false, revokeDone := false, pendingEnd := 0, completed := false }

/-- An entry of the work-list directory (R160). -/
structure ListEntry where
  items : Nat
  ctr : Nat
  cap : Nat
  pair : Bool
  noRevoke : Bool
  done : Nat
  deriving DecidableEq, Repr

/-- An image copied at launch: its bytes. -/
abbrev Image := List Byte

/-- What an accepted launch holds until its job ends (R141, R146): the copies are one for all tiles of the set. -/
structure Job where
  first : Nat
  count : Nat
  param : Nat
  seq : W32
  jobtag : BitVec 16
  user : W64
  userLen : W32
  codeLo : Nat
  codeHi : Nat
  doneTally : BitVec 6
  doneCount : W32
  lists : List ListEntry
  /-- MODEL: memory as it stood when each list was last armed, by list number (R264). -/
  armed : List (Nat × List Host.Cell)
  formats : FormatTable
  curves : Option Image
  mprog : Option Image
  layerFmt : Nat
  nlayer : Nat
  policy : Option Image
  stats : Nat
  update : Option Image
  step : Option Image
  route : Option Image
  deriving DecidableEq, Repr

/-! ### The module -/

/-- The state of one module. -/
structure State where
  part : Part
  tiles : List (Nat × Tile)
  /-- The active tiles in logical order (R18): MESH_L2P. -/
  l2p : List TileId
  meshOpen : Bool
  mem : List Host.Cell
  /-- MODEL: the addresses of the binary64 totals that FIRST and MIDDLE passes wrote, each with the pass that wrote it (what a
  continuation must go on from, R110). -/
  rawTotals : List (Nat × Option RawTotal)
  /-- The 64-byte lines of DDR that hold poisoned data (R258), by line number. -/
  poisoned : List Nat
  ports : Vector Port 64
  launch : LaunchRegs
  job : Option Job
  hostTallies : Vector W32 64
  light : Light
  fabric : Fabric
  steps : Steps
  health : Health
  rtu : Rtu
  mesh : Mesh
  standby : Standby
  power : Power
  nv : NonVolatile
  boot : Boot
  sec : Sec
  spdm : Spdm
  eth : Vector EthPort 5
  irq : Irq
  /-- MODEL: the 64 bytes that the last DDR_READ delivered, and the value that the last read of a counter that a read
  clears delivered. -/
  readData : List Byte
  readValue : W32
  /-- The commands waiting, first in first out. -/
  pending : List Instr
  /-- MODEL: the number of the next free value. -/
  freeCtr : Nat
  deriving DecidableEq, Repr

/-- The module just after module reset. (DESIGN CHOICE, log 1, 3, 14). -/
def State.reset : State :=
  { part := ⟨.c04T, .a, false⟩, tiles := [], l2p := [], meshOpen := false, mem := [], rawTotals := [], poisoned := [],
    ports := Vector.replicate 64 .reset, launch := .reset, job := none, hostTallies := Vector.replicate 64 0,
    light := .reset, fabric := .reset, steps := .reset, health := .reset, rtu := .reset,
    mesh := .reset, standby := .reset, power := .reset, nv := .reset, boot := .reset, sec := .reset, spdm := .reset,
    eth := Vector.replicate 5 .reset, irq := .reset, readData := [], readValue := 0, pending := [], freeCtr := 1 }

end Sys2Proof.Machine
end

