-- ==== Sys2Proof/Machine/Descriptor.lean ====
section
/-!
DEFINITION. Tensor descriptors: the record, its validation, the view and the address of every cell (R200 to R211).
-/
namespace Sys2Proof.Machine

/-- The populated bytes of a tile's SRAM (R19). -/
def sramBytes : Nat := 0x0280_0000
/-- The SRAM window of tile p (R452). -/
def sramBase (p : Nat) : Nat := 0x4000_0000_0000 + p * 0x0400_0000
/-- The tile whose SRAM window holds an address, with the offset in it. -/
def sramWindow (a : Nat) : Option (TileId × Nat) :=
  if a < sramBase 0 then none
  else
    let p := (a - sramBase 0) / 0x0400_0000
    if h : p < 1152 then some (⟨p, h⟩, (a - sramBase 0) % 0x0400_0000) else none

/-- The end of fitted DDR (R253). -/
def Part.ddrEnd (p : Part) : Nat :=
  match p.mem with
  | .c04T => 0x0400_0000_0000
  | .c08T => 0x0800_0000_0000
  | .c16T => 0x1000_0000_0000

/-- A field of `n` little-endian bytes of an image. -/
def Image.field (r : Image) (off n : Nat) : Nat := leNat ((r.drop off).take n)

/-- A two's complement field of an image. -/
def Image.sfield (r : Image) (off n : Nat) : Int :=
  let v := Image.field r off n
  if v < 2 ^ (8 * n - 1) then v else (v : Int) - 2 ^ (8 * n)

/-- A failed descriptor check: its cause and the dimension it names. -/
structure DescErr where
  cause : Byte
  dim : Nat
  deriving DecidableEq, Repr

namespace Desc

/-- Row counts of BROWS (R201). -/
def rowsOfCode (c : Nat) : Nat := if c = 0 then 0 else 8 * 2 ^ c

/-- KD, OD, step and EXT of a window pair word (R204). -/
def kd (w : W32) : Nat := w.toNat % 8
def od (w : W32) : Nat := w.toNat / 8 % 8
def step (w : W32) : Nat := w.toNat / 64 % 16 + 1
def ext (w : W32) : Nat := w.toNat / 65536

/-- Whether dimension k belongs to a window pair. -/
def inWin (d : Desc) (k : Nat) : Bool := d.win.any fun w => kd w == k || od w == k

/-- The view extent V_k (R202). -/
def ext1 (d : Desc) (k : Nat) : Nat :=
  if d.inWin k then d.size.getD k 0
  else if k = 0 then d.size.getD 0 0
  else d.padlo.getD k 0 + d.size.getD k 0 + d.padhi.getD k 0

/-- The extents of view dimensions 0 and 1. -/
def view0 (d : Desc) : Nat := ((List.range d.fold).map d.ext1).foldl (· * ·) 1
def view1 (d : Desc) : Nat := ((List.range (d.rank - d.fold)).map fun k => d.ext1 (d.fold + k)).foldl (· * ·) 1

/-- Mixed-radix digits of a view index over dimensions `ks`. -/
def digits (d : Desc) : List Nat → Nat → List Nat
  | [], _ => []
  | k :: ks, x => x % d.ext1 k :: digits d ks (x / d.ext1 k)

/-- The indices j of a view position (R202). -/
def index (d : Desc) (a b : Nat) : List Nat :=
  digits d (List.range d.fold) a ++ digits d ((List.range (d.rank - d.fold)).map (d.fold + ·)) b

/-- Plain dimensions d ≥ 1: neither in a window pair nor the tiled dimension 1. -/
def plainDims (d : Desc) : List Nat :=
  ((List.range d.rank).drop 1).filter fun k => !d.inWin k && !(d.brows != 0 && k == 1)

/-- The tensor index of a plain dimension. -/
def tIndex (d : Desc) (j : List Nat) (k : Nat) : Int := (j.getD k 0 : Int) - d.padlo.getD k 0

/-- The image coordinate of a window pair (R204). -/
def xCoord (d : Desc) (j : List Nat) (w : W32) : Int :=
  (j.getD (od w) 0 * step w + j.getD (kd w) 0 : Nat) - (d.padlo.getD (kd w) 0 : Int)

/-- Whether a view position is a pad cell (R203, R204). -/
def isPad (d : Desc) (a b : Nat) : Bool :=
  let j := d.index a b
  (d.plainDims.any fun k => decide (d.tIndex j k < 0) || decide ((d.size.getD k 0 : Int) ≤ d.tIndex j k)) ||
  (d.win.any fun w => decide (d.xCoord j w < 0) || decide ((ext w : Int) ≤ d.xCoord j w))

/-- The bit address of a view position in the descriptor's space, for element width `w` (R203, R205, R218). -/
def bitAddr (d : Desc) (w : Nat) (half : Bool) (a b : Nat) : Nat :=
  let j := d.index a b
  let bits := j.getD 0 0 * w
  let outer : Int := (d.plainDims.map fun k => d.tIndex j k * d.stride.getD k 0).foldl (· + ·) 0
  let win : Int := (d.win.map fun v => d.xCoord j v * d.stride.getD (kd v) 0).foldl (· + ·) 0
  let start : Int := (d.base : Int) + (if half then (d.half : Int) else 0)
  let run : Int × Nat :=
    if d.brows = 0 then (0, bits)
    else
      let byte := bits / 8
      let i1 := j.getD 1 0
      ((i1 / d.brows : Nat) * d.stride.getD 1 0 +
        (byte / 64 * 64 * d.brows + i1 % d.brows * 64 + byte % 64 : Nat), bits % 8)
  ((start + outer + win + run.1) * 8 + run.2).toNat

/-- The scale address of the block that begins at bit address `bit` (R206). -/
def scaleAddr (d : Desc) (t : EType) (bit : Nat) : Nat :=
  ((d.sbase : Int) + ((bit / 8 : Nat) - (d.base : Int)) / (t.block * t.width / 8 : Nat) * t.scaleBytes).toNat

/-- The bounds a_k and b_k of the tensor index that accesses touch (R207). -/
def bounds (d : Desc) (k : Nat) : Int × Int :=
  if d.wr && d.padWrite then
    (-(d.padlo.getD k 0 : Int), (d.size.getD k 0 : Int) + d.padhi.getD k 0 - 1)
  else (0, (d.size.getD k 0 : Int) - 1)

/-- n_k of R207. -/
def extentN (d : Desc) (k : Nat) : Nat := ((d.bounds k).2 - (d.bounds k).1 + 1).toNat

def ceilDiv (a b : Nat) : Nat := (a + b - 1) / b

/-- The footprint before the outer dimensions: its dimension number and [lo, hi) (R207). -/
def firstSpan (d : Desc) (w : Nat) : Nat × Int × Int :=
  let b : Int := d.base
  let s0 := d.size.getD 0 0
  if d.brows = 0 then (0, b, b + ceilDiv (s0 * w) 8)
  else (1, b, b + ((d.size.getD 1 0 / d.brows : Nat) - 1 : Int) * d.stride.getD 1 0 +
    (ceilDiv (s0 * w) 512 * 64 * d.brows : Nat))

/-- How each outer dimension widens the footprint: dimension, added to lo, added to hi (R207). -/
def widenings (d : Desc) : List (Nat × Int × Int) :=
  (d.plainDims.map fun k =>
    let s := d.stride.getD k 0
    let x := (d.bounds k).1 * s
    let y := (d.bounds k).2 * s
    (k, min x y, max x y)) ++
  (d.win.map fun v =>
    let y := ((ext v : Int) - 1) * d.stride.getD (kd v) 0
    (kd v, min 0 y, max 0 y))

/-- The whole footprint of the first half [lo, hi) (R207). -/
def footprint (d : Desc) (w : Nat) : Int × Int :=
  d.widenings.foldl (fun f x => (f.1 + x.2.1, f.2 + x.2.2)) ((d.firstSpan w).2)

/-- Block bytes of R206. -/
def blockBytes (t : EType) : Nat := t.block * t.width / 8

/-- The scale footprint that goes with the footprint [lo, hi) (R207). -/
def scaleSpan (d : Desc) (t : EType) (f : Int × Int) : Int × Int :=
  let bb : Int := blockBytes t
  (d.sbase + (f.1 - d.base) / bb * t.scaleBytes, d.sbase + (f.2 - d.base + bb - 1) / bb * t.scaleBytes)

/-- Every interval the accesses can touch when the footprint is [lo, hi): halves and scales. -/
def spans (d : Desc) (t : EType) (f : Int × Int) : List (Int × Int) :=
  let sh (x : Int × Int) (k : Int) : Int × Int := (x.1 + k, x.2 + k)
  let one := f :: (if d.pair then [sh f d.half] else [])
  if t.block = 0 then one
  else
    let sc := d.scaleSpan t f
    let k : Int := (d.half / blockBytes t : Nat) * t.scaleBytes
    one ++ (sc :: (if d.pair then [sh sc k] else []))

/-- Whether the range lies wholly in the descriptor's space (R208): `inSet` tells the tiles of the launch's set. -/
def rangeInSpace (d : Desc) (ddrEnd : Nat) (inSet : TileId → Bool) : Bool :=
  let e := d.rbase + d.rlen
  if !d.space1 then decide (e ≤ sramBytes)
  else if d.rbase < ddrEnd then decide (e ≤ ddrEnd)
  else match sramWindow d.rbase with
    | some (p, off) => decide (off + d.rlen ≤ sramBytes) && inSet p
    | none => false

/-- Check 0x44 (R208): the range, the footprints dimension by dimension, and the overlap of the halves. (DEDUCED, log 93). -/
def checkRange (d : Desc) (t : EType) (ddrEnd : Nat) (inSet : TileId → Bool) : Option DescErr :=
  let lo : Int := d.rbase
  let hi : Int := d.rbase + d.rlen
  let bad (f : Int × Int) : Bool := (d.spans t f).any fun x => decide (x.1 < lo) || decide (hi < x.2)
  let rec go (f : Int × Int) : List (Nat × Int × Int) → Option DescErr
    | [] => none
    | (k, x, y) :: l =>
      let f' := (f.1 + x, f.2 + y)
      if bad f' then some ⟨0x44, k⟩ else go f' l
  if !d.rangeInSpace ddrEnd inSet || d.rlen == 0 then some ⟨0x44, 0⟩
  else
    let fs := d.firstSpan t.width
    match go fs.2 ((fs.1, 0, 0) :: d.widenings) with
    | some e => some e
    | none =>
      let f := d.footprint t.width
      let sc := d.scaleSpan t f
      if d.pair && (decide ((d.half : Int) < f.2 - f.1) ||
          (t.block != 0 && decide ((d.half / blockBytes t * t.scaleBytes : Nat) < sc.2 - sc.1))) then
        some ⟨0x44, 0⟩
      else none

/-- Check 0x43 (R208): alignment. -/
def checkAlign (d : Desc) (t : EType) : Option DescErr :=
  let bb := blockBytes t
  let off (n : Nat) : Bool := n % 64 != 0 || (t.block != 0 && n % bb != 0)
  if off d.base || (d.pair && off d.half) || (t.block != 0 && d.sbase % t.scaleBytes != 0) then some ⟨0x43, 0⟩
  else match ((List.range d.rank).drop 1).find? fun k => off (d.stride.getD k 0).natAbs with
    | some k => some ⟨0x43, k⟩
    | none => none

/-- Check 0x47 (R204, R205): it names KD or OD of the pair, or dimension 1 for the tiling. (DEDUCED, log 93). -/
def checkWindows (d : Desc) (t : EType) : Option DescErr :=
  let badPair (w : W32) : Bool :=
    d.wr || kd w == 0 || decide (d.rank ≤ kd w) || od w == 0 || decide (d.rank ≤ od w) || od w == kd w
  let badZero (w : W32) : Bool :=
    d.stride.getD (od w) 0 != 0 || d.padlo.getD (od w) 0 != 0 || d.padhi.getD (od w) 0 != 0 ||
      d.padhi.getD (kd w) 0 != 0
  let twice : Bool := match d.win with
    | [v, w] => kd v == kd w || kd v == od w || od v == kd w || od v == od w
    | _ => false
  match d.win.find? badPair with
  | some w => some ⟨0x47, kd w % 8⟩
  | none =>
    match d.win.find? badZero with
    | some w => some ⟨0x47, od w⟩
    | none =>
      if twice then some ⟨0x47, kd (d.win.getD 1 0)⟩
      else
        let s1 := d.stride.getD 1 0
        if d.brows != 0 &&
            (decide (d.rank < 2) || d.fold != 1 || t.block != 0 || d.padlo.getD 1 0 != 0 || d.padhi.getD 1 0 != 0 ||
              d.inWin 1 || d.size.getD 1 0 % d.brows != 0 || decide (s1 ≤ 0) || s1 % 64 != 0 ||
              decide (s1 < (ceilDiv (d.size.getD 0 0 * t.width) 512 * 64 * d.brows : Nat))) then some ⟨0x47, 1⟩
        else none

/-- Insertion of a dimension by ascending |STRIDE|, record order kept for equal values. -/
def insertDim (d : Desc) (k : Nat) : List Nat → List Nat
  | [] => [k]
  | x :: l =>
    if (d.stride.getD k 0).natAbs < (d.stride.getD x 0).natAbs then k :: x :: l else x :: insertDim d k l

/-- Checks 0x45 and 0x46 (R208, R209) of a write descriptor. -/
def checkAlias (d : Desc) (t : EType) : Option DescErr :=
  let dims := d.plainDims.filter fun k => decide (1 < d.extentN k)
  match dims.find? fun k => d.stride.getD k 0 == 0 with
  | some k => some ⟨0x45, k⟩
  | none =>
    let f := (d.firstSpan t.width).2
    let rec go (span : Nat) : List Nat → Option DescErr
      | [] => none
      | k :: l =>
        let s := (d.stride.getD k 0).natAbs
        if s < span then some ⟨0x46, k⟩ else go (span + s * (d.extentN k - 1)) l
    go (f.2 - f.1).toNat (dims.foldl (fun l k => d.insertDim k l) [])

end Desc

/-- Check 0x40 on the bytes of a record, before its type is known (R208). (DEDUCED, log 93). -/
def recordErr (r : Image) : Option DescErr :=
  let b (o : Nat) : Nat := Image.field r o 1
  let rank := b 0
  let fold := b 3
  let badHead := b 7 != 0 || decide (b 1 ≥ 32) || decide (b 2 ≥ 16) || decide (fold ≥ 8) || decide (b 4 ≥ 6) ||
    decide (b 5 ≥ 3) || decide (b 6 ≥ 3) || Image.field r 0x56 2 != 0 || rank == 0 || decide (6 < rank) ||
    !(if rank = 1 then fold == 1 else decide (1 ≤ fold) && decide (fold ≤ rank - 1))
  let unused (k : Nat) : Bool := decide (rank ≤ k) &&
    (Image.field r (0x34 + 4 * k) 4 != 0 ||
      (decide (1 ≤ k) && (b (0x4B + k) != 0 || b (0x50 + k) != 0 || Image.field r (0x50 + 8 * k) 8 != 0)))
  let bigStride (k : Nat) : Bool := decide (2 ^ 47 ≤ (Image.sfield r (0x50 + 8 * k) 8).natAbs)
  let badWin (i : Nat) : Bool :=
    let w := Image.field r (0x2C + 4 * i) 4
    if b 5 ≤ i then w != 0 else w / 1024 % 64 != 0 || w / 65536 == 0
  if badHead then some ⟨0x40, 0⟩
  else match (List.range 6).find? unused with
    | some k => some ⟨0x40, k⟩
    | none =>
      match ((List.range 6).drop 1).find? bigStride with
      | some k => some ⟨0x40, k⟩
      | none =>
        if Image.field r 0x0E 2 != 0 || Image.field r 0x16 2 != 0 || Image.field r 0x26 2 != 0 || badWin 0 || badWin 1 then
          some ⟨0x40, 0⟩
        else if b 2 / 2 % 2 = 0 ∧ Image.field r 0x28 4 ≠ 0 then some ⟨0x40, 0⟩
        else none

/-- The descriptor a record spells. -/
def recordDesc (r : Image) : Desc :=
  let b (o : Nat) : Nat := Image.field r o 1
  { rank := b 0, etype := BitVec.ofNat 5 (b 1), wr := b 2 % 2 == 1, pair := b 2 / 2 % 2 == 1,
    padWrite := b 2 / 4 % 2 == 1, space1 := b 2 / 8 % 2 == 1, fold := b 3, brows := Desc.rowsOfCode (b 4),
    base := Image.field r 8 8, rbase := Image.field r 0x10 8, rlen := Image.field r 0x18 8,
    sbase := Image.field r 0x20 8, half := Image.field r 0x28 4,
    win := (List.range (b 5)).map fun i => BitVec.ofNat 32 (Image.field r (0x2C + 4 * i) 4), padv := b 6,
    size := Vector.ofFn fun k => Image.field r (0x34 + 4 * k.1) 4,
    padlo := Vector.ofFn fun k => if k.1 = 0 then 0 else b (0x4B + k.1),
    padhi := Vector.ofFn fun k => if k.1 = 0 then 0 else b (0x50 + k.1),
    stride := Vector.ofFn fun k => if k.1 = 0 then 0 else Image.sfield r (0x50 + 8 * k.1) 8 }

/-- The first failing check of DMAKE, in the order of R208, or the descriptor. -/
def validate (ft : FormatTable) (ddrEnd : Nat) (inSet : TileId → Bool) (r : Image) : Except DescErr Desc :=
  match recordErr r with
  | some e => .error e
  | none =>
    let d := recordDesc r
    match ft.resolve d.etype with
    | none => .error ⟨0x41, 0⟩
    | some t =>
      if t.block = 0 ∧ d.sbase ≠ 0 then .error ⟨0x40, 0⟩
      else if (t.block ≠ 0 ∧ (d.size.getD 0 0 % t.block ≠ 0 ∨ d.padv ≠ 0 ∨ d.brows ≠ 0 ∨ d.win ≠ [])) ∨
          (d.pair ∧ d.space1) then .error ⟨0x41, 0⟩
      else match (List.range d.rank).find? fun k => d.size.getD k 0 == 0 with
        | some k => .error ⟨0x42, k⟩
        | none =>
          if 2 ^ 32 ≤ d.view0 ∨ 2 ^ 32 ≤ d.view1 ∨ d.size.getD 0 0 * t.width % 8 ≠ 0 then .error ⟨0x42, 0⟩
          else match d.checkAlign t with
            | some e => .error e
            | none =>
              match d.checkWindows t with
              | some e => .error e
              | none =>
                match d.checkRange t ddrEnd inSet with
                | some e => .error e
                | none =>
                  match (if d.wr then d.checkAlias t else none) with
                  | some e => .error e
                  | none => .ok d

/-- The code a pad cell takes (R201): 0, the most negative, or the largest value of the type. -/
def padCode (t : EType) (padv : Nat) : Nat :=
  if padv = 0 then 0
  else
    let neg := padv == 1
    match t.kind with
    | .flt f =>
      if neg && !f.sign then 0
      else if f.infMode != 0 then f.infCode neg
      else f.signWeight neg + f.largestCode
    | .mxint8 => if neg then 0x80 else 0x7F
    | .int signed w => if !neg then (if signed then 2 ^ (w - 1) - 1 else 2 ^ w - 1) else if signed then 2 ^ (w - 1) else 0

/-- Whether a window of view extents lies inside the view (R219); one without extent does not. (DEDUCED, log 105). -/
def Window.inside (w : Window) : Bool :=
  decide (1 ≤ w.len0) && decide (1 ≤ w.len1) && decide (w.a + w.len0 ≤ w.desc.view0) &&
    decide (w.b + w.len1 ≤ w.desc.view1)

/-- The view positions of a window in view order: dimension 0 within dimension 1, ascending (R217). -/
def Window.cells (w : Window) : List (Nat × Nat) :=
  (List.range w.len1).flatMap fun j => (List.range w.len0).map fun i => (w.a + i, w.b + j)

/-- The physical address of byte `a` of a descriptor's space. -/
def Desc.phys (d : Desc) (p : TileId) (a : Nat) : Nat := if d.space1 then a else sramBase p.1 + a

/-- Byte `a` of an element that begins at bit address `bit`, in the descriptor's space: beyond the 64-byte piece of its row in a
tiled tensor, the next piece of that row (R205). -/
def Desc.byteOf (d : Desc) (bit a : Nat) : Nat := if d.brows ≠ 0 ∧ bit / 512 < a / 64 then a + 64 * (d.brows - 1) else a

/-- The bytes of the element at a view position, in the descriptor's space. -/
def Window.spaceBytes (w : Window) (t : EType) (a b : Nat) : List Nat :=
  let bit := w.desc.bitAddr t.width w.half a b
  (List.range ((bit % 8 + t.width + 7) / 8)).map fun k => w.desc.byteOf bit (bit / 8 + k)

/-- The physical bytes of the element at a view position. -/
def Window.elemBytes (w : Window) (p : TileId) (t : EType) (a b : Nat) : List Nat := (w.spaceBytes t a b).map (w.desc.phys p)

/-- The physical bytes of the scale of the block that begins at a view position. -/
def Window.scaleBytes (w : Window) (p : TileId) (t : EType) (a b : Nat) : List Nat :=
  (List.range t.scaleBytes).map fun k => w.desc.phys p (w.desc.scaleAddr t (w.desc.bitAddr t.width w.half a b) + k)

/-- The physical bytes of the elements of a window that are not pad cells, and of the scales of their blocks. -/
def Window.bytes (w : Window) (p : TileId) (t : EType) : List Nat :=
  w.cells.flatMap fun c =>
    if w.desc.isPad c.1 c.2 && !(w.desc.wr && w.desc.padWrite) then []
    else if t.block ≠ 0 ∧ (w.desc.index c.1 c.2).getD 0 0 % t.block = 0 then
      w.elemBytes p t c.1 c.2 ++ w.scaleBytes p t c.1 c.2
    else w.elemBytes p t c.1 c.2

/-- The same of a read: a pad cell is delivered without an access, also under PAD_WRITE (R203). -/
def Window.readBytes (w : Window) (p : TileId) (t : EType) : List Nat :=
  ({ w with desc := { w.desc with padWrite := false } } : Window).bytes p t

end Sys2Proof.Machine
end

