-- ==== Sys2Proof/Machine/Sparse.lean ====
section
/-!
DEFINITION. Sparse data by key in one canonical form: keys strictly rising, and no entry equal to what an unlisted
key reads as. Memory, and everything else that is sparse, is held so.
-/
namespace Sys2Proof.Sparse

variable {α : Type}

/-- The value at a key; `d` is what an unlisted key reads as. -/
def get (d : α) : List (Nat × α) → Nat → α
  | [], _ => d
  | (a, v) :: l, k => if k = a then v else if k < a then d else get d l k

/-- Put an entry that differs from the default. -/
def insert (k : Nat) (x : α) : List (Nat × α) → List (Nat × α)
  | [] => [(k, x)]
  | (a, v) :: l => if k = a then (k, x) :: l else if k < a then (k, x) :: (a, v) :: l else (a, v) :: insert k x l

/-- Remove an entry. -/
def erase (k : Nat) : List (Nat × α) → List (Nat × α)
  | [] => []
  | (a, v) :: l => if k = a then l else if k < a then (a, v) :: l else (a, v) :: erase k l

/-- Write a key: an entry equal to the default is not listed. -/
def set [DecidableEq α] (d : α) (m : List (Nat × α)) (k : Nat) (x : α) : List (Nat × α) :=
  if x = d then erase k m else insert k x m

/-- Keys strictly rising above `lo`, no entry equal to the default. -/
def wfFrom [DecidableEq α] (d : α) (lo : Nat) : List (Nat × α) → Bool
  | [] => true
  | (a, v) :: l => decide (lo ≤ a) && decide (v ≠ d) && wfFrom d (a + 1) l

/-- The canonical form. -/
def wf [DecidableEq α] (d : α) (m : List (Nat × α)) : Bool := wfFrom d 0 m

end Sys2Proof.Sparse
end

