-- ==== Sys2Proof/Machine/Ops.lean ====
section
/-!
DEFINITION. The named operations over the module's memory, tiles, tallies, faults and the draining of a launch.
-/
namespace Sys2Proof.Machine

/-! ### Power -/

/-- Every rail is in regulation and RESET_N is high (R419, R420). -/
def State.powered (s : State) : Bool := s.standby.pg && !s.standby.inReset

/-- What a command does while the module runs; unpowered or held in reset, no block acts (R420, R443). -/
def State.whenPowered (s : State) (f : State → Host.Outcome State Fault Refusal) : Host.Outcome State Fault Refusal :=
  if s.powered then f s else .next s

/-- What a command does at a memory port while the DIMMs serve: in a thermal shutdown they are in self-refresh (R431). -/
def State.whenServed (s : State) (f : State → Host.Outcome State Fault Refusal) : Host.Outcome State Fault Refusal :=
  s.whenPowered fun s => if s.power.shutdown then .next s else f s

/-! ### Memory -/

/-- What an unlisted byte of memory reads as (log 1: DESIGN CHOICE). -/
def memDefault : Byte := 0

namespace State

/-- The canonical form of memory. -/
def memWf (s : State) : Bool := Sparse.wf memDefault s.mem

/-- The stored byte at a physical address, poison aside. (DESIGN CHOICE, log 1). -/
def peek (s : State) (a : Nat) : Byte := Sparse.get memDefault s.mem a

/-- Whether the 64-byte access that holds `a` is poisoned (R258). -/
def isPoisoned (s : State) (a : Nat) : Bool := s.poisoned.contains (a / 64)

/-- Whether an access of [a, a + n) meets a poisoned line. -/
def poisonIn (s : State) (a n : Nat) : Bool := s.poisoned.any fun l => decide (a < 64 * l + 64 ∧ 64 * l < a + n)

/-- The byte a read delivers: zero from a poisoned access (R258). -/
def rd (s : State) (a : Nat) : Byte := if s.isPoisoned a then 0 else s.peek a

def rdBytes (s : State) (a n : Nat) : List Byte := (List.range n).map fun i => s.rd (a + i)

/-- A little-endian number of `n` bytes. -/
def rdNat (s : State) (a n : Nat) : Nat := leNat (s.rdBytes a n)

def rd64 (s : State) (a : Nat) : W64 := BitVec.ofNat 64 (s.rdNat a 8)
def rd32 (s : State) (a : Nat) : W32 := BitVec.ofNat 32 (s.rdNat a 4)

/-- Write one byte. -/
def wr (s : State) (a : Nat) (b : Byte) : State := { s with mem := Sparse.set memDefault s.mem a b }

/-- The poisoned lines that `covered` does not write whole (R258). -/
def clearPoison (s : State) (covered : Nat → Bool) : State :=
  { s with poisoned := s.poisoned.filter fun l => !((List.range 64).all fun i => covered (64 * l + i)) }

/-- Write a list of bytes by address, in order; a line written whole is no longer poisoned. -/
def wrList (s : State) (l : List (Nat × Byte)) : State :=
  (l.foldl (fun s x => s.wr x.1 x.2) s).clearPoison fun a => l.any fun x => x.1 == a

/-- Write consecutive bytes. -/
def wrBytes (s : State) (a : Nat) (l : List Byte) : State :=
  (l.zipIdx.foldl (fun s x => s.wr (a + x.2) x.1) s).clearPoison fun b => decide (a ≤ b ∧ b < a + l.length)

def wrNat (s : State) (a n v : Nat) : State := s.wrBytes a (leBytes v n)

/-- Whether [a, a + n) lies in fitted DDR. -/
def inDdr (s : State) (a n : Nat) : Bool := decide (a + n ≤ s.part.ddrEnd)

/-- Bits [bit, bit + w) of memory, for bit addresses mapped by `phys` from byte offsets. -/
def rdBits (s : State) (phys : Nat → Nat) (bit w : Nat) : Nat := bitsAt (fun a => s.rd (phys a)) bit w

/-- Write `w` bits, keeping the neighbours in the same bytes. -/
def wrBits (s : State) (phys : Nat → Nat) (bit w v : Nat) : State :=
  let n := (bit % 8 + w + 7) / 8
  let b0 := bit / 8
  let old := leNat ((List.range n).map fun i => s.peek (phys (b0 + i)))
  let sh := bit % 8
  let new := old % 2 ^ sh + (v % 2 ^ w) * 2 ^ sh + old / 2 ^ (sh + w) * 2 ^ (sh + w)
  (List.range n).foldl (fun s i => s.wr (phys (b0 + i)) (BitVec.ofNat 8 (new / 256 ^ i))) s

/-! ### Free values -/

/-- The next free value and the state that has used it. (DESIGN CHOICE, log 3). -/
def takeFree (s : State) : W64 × State := (Config.freeValue s.freeCtr, { s with freeCtr := s.freeCtr + 1 })

/-- Leave the listed bytes unpredictable but confined to them (R15). (DESIGN CHOICE, log 3). (DESIGN CHOICE, log 95). -/
def scramble (s : State) (addrs : List Nat) : State :=
  let k := s.freeCtr
  let s := (addrs.zipIdx.foldl (fun s x => s.wr x.1 (Config.freeByte k x.2)) s)
  { s with freeCtr := k + 1 }

/-! ### Tiles -/

def tile (s : State) (p : TileId) : Tile := Sparse.get Tile.reset s.tiles p.1
def setTile (s : State) (p : TileId) (t : Tile) : State := { s with tiles := Sparse.set Tile.reset s.tiles p.1 t }
def modTile (s : State) (p : TileId) (f : Tile → Tile) : State := s.setTile p (f (s.tile p))

/-- The tiles of the launch's set: FIRST + i for i below COUNT, in logical order (R146). -/
def setOf (s : State) (j : Job) : List TileId := (s.l2p.drop j.first).take j.count

/-- Whether a tile is in the running launch's set. -/
def inSet (s : State) (p : TileId) : Bool :=
  match s.job with
  | some j => (s.setOf j).contains p
  | none => false

/-- The tiles of the running launch. -/
def jobTiles (s : State) : List TileId :=
  match s.job with
  | some j => s.setOf j
  | none => []

/-- The logical number of a tile, 0x7FF for none (R18). -/
def logicalOf (s : State) (p : TileId) : Nat :=
  match s.l2p.findIdx? (· == p) with
  | some n => n
  | none => 0x7FF

/-- The format table of the running job; the empty one without (R61). -/
def formats (s : State) : FormatTable :=
  match s.job with
  | some j => j.formats
  | none => .empty

/-- The element type a code names in the running job (R62). -/
def etype (s : State) (c : BitVec 5) : Option EType := s.formats.resolve c

/-- Whether [a, a + n) meets the counter word of a list, which the program must not write (R161). (DESIGN CHOICE, log 95). -/
def meetsCounter (s : State) (a n : Nat) : Bool := match s.job with
  | some j => j.lists.any fun e => decide (a < e.ctr + 16 ∧ e.ctr < a + n)
  | none => false

/-- A store of the program. Into a counter word, which it must not write, it leaves its bytes unpredictable (R16, R161; DESIGN CHOICE,
log 95). -/
def storeNat (s : State) (a n v : Nat) : State :=
  if s.meetsCounter a n then s.scramble ((List.range n).map (a + ·)) else s.wrNat a n v

/-! ### Ports -/

def port (s : State) (i : Nat) : Port := s.ports.getD i .reset
def modPort (s : State) (i : Nat) (f : Port → Port) : State :=
  if h : i < 64 then { s with ports := s.ports.set i (f s.ports[i]) } else s

/-- The channel of a DDR address (R255). -/
def channelOf (a : Nat) : Nat := (a / 2048 % 64) ^^^ (a / 2048 % 64 / 8)

/-- The atomic unit of the line's port holds the line, most recently used first, at most 256 (R264). (DEDUCED, log 56). -/
def touchAtomic (s : State) (a : Nat) : State :=
  s.modPort (channelOf a) fun q =>
    { q with resident := ((a / 64) :: q.resident.filter (· != a / 64)).take 256 }

end State

/-! ### Scalar registers -/

/-- s[r]; s0 reads zero. -/
def Tile.reg (t : Tile) (r : BitVec 5) : W64 := if r = 0 then 0 else t.regs[r.toNat]'(by omega)

/-- Write s[r]; a write to s0 is discarded. -/
def Tile.setReg (t : Tile) (r : BitVec 5) (v : W64) : Tile :=
  if r = 0 then t else { t with regs := t.regs.set r.toNat v (by omega) }

/-- Registers with a write pending (R149, R335): the sd of every CLAIM whose reply has not come, of every instruction that has not
started, and of every COLL that waits for the join. -/
def Tile.isPending (t : Tile) (r : BitVec 5) : Bool :=
  r != 0 && ((t.claims.any fun c => c.sd == r) || t.collWait.any (· == r) || t.waiting.any fun w => w.dest == some r)

def Tile.tally (t : Tile) (k : BitVec 6) : W32 := t.tallies[k.toNat]'(by omega)
def Tile.setTally (t : Tile) (k : BitVec 6) (v : W32) : Tile :=
  { t with tallies := t.tallies.set k.toNat v (by omega) }

/-- A tally has reached its target: (tally − target) read as a signed value is zero or positive (R159). -/
def reached (tally target : W32) : Bool := !(tally - target).msb

/-- A tile in WAITT whose tally has reached its target issues on: the WAITT completes (R159, R152). (DEDUCED, log 37). -/
def Tile.wake (t : Tile) : Tile :=
  if t.state = .inWaitt ∧ reached (t.tally t.waitT) t.waitTarget then
    { t with state := .issuing, pc := t.pc + 8, issued := t.issued + 1, issueNo := t.issueNo + 1,
             markAt := if t.waitMk then t.issueNo + 1 else t.markAt }
  else t

/-- Add to a tally, modulo 2^32 (R158). -/
def Tile.addTally (t : Tile) (k : BitVec 6) (v : W32) : Tile := (t.setTally k (t.tally k + v)).wake

namespace State

/-- Add to a tally of a tile of a running launch. -/
def addTally (s : State) (p : TileId) (k : BitVec 6) (v : W32) : State :=
  s.modTile p fun t => t.addTally k v

def hostTally (s : State) (k : BitVec 6) : W32 := s.hostTallies[k.toNat]'(by omega)

/-- The completion rule of R147 at any change of a host tally. -/
def checkDone (s : State) : State :=
  match s.job with
  | some j =>
    if s.launch.run ∧ !s.launch.completed ∧ reached (s.hostTally j.doneTally) j.doneCount then
      { s with launch := { s.launch with completed := true, doneIrq := true } }
    else s
  | none => s

/-- A write of a host tally, then the completion rule. -/
def setHostTally (s : State) (k : BitVec 6) (v : W32) : State :=
  { s with hostTallies := s.hostTallies.set k.toNat v (by omega) }.checkDone

/-- Bytes of the statistics area; 0 without one (R129). -/
def statsLen (s : State) : Nat := match s.job with
  | some j => if j.stats = 0 ∨ j.layerFmt = 0 then 0 else 192 * j.nlayer
  | none => 0

def statsAt (s : State) : Nat := match s.job with
  | some j => j.stats
  | none => 0

def stepsMod (s : State) (f : Steps → Steps) : State := { s with steps := f s.steps }

/-- Raise the non-finite flag of the attempt: of the next one once this module has arrived (R363). -/
def raiseNf (s : State) : State :=
  if s.steps.phase = .stepping then s.stepsMod fun x => { x with nf := true }
  else s.stepsMod fun x => { x with nfNext := true }

/-- An addition to VETO_T raises the flag, whatever the value added (R363). (DEDUCED, log 75). -/
def noteVeto (s : State) (k : BitVec 6) : State :=
  match s.job with
  | some j => match j.step with
    | some c => if k.toNat = Image.field c 0x0E 1 then s.raiseNf else s
    | none => s
  | none => s

def addHostTally (s : State) (k : BitVec 6) (v : W32) : State := (s.setHostTally k (s.hostTally k + v)).noteVeto k

/-- Add to a 64-bit memory counter at its atomic unit (R158). -/
def addMemCounter (s : State) (a : Nat) (v : W32) : State :=
  (s.wrNat a 8 (s.rdNat a 8 + v.toNat)).touchAtomic a

/-- The same by a SIGNAL of the program. -/
def addProgCounter (s : State) (a : Nat) (v : W32) : State :=
  (s.storeNat a 8 (s.rdNat a 8 + v.toNat)).touchAtomic a

/-! ### Draining and faults (R171 to R174) -/

/-- Set END's candidate to the highest-ranked ending (R148): the codes of END rank in numerical order. -/
def noteEnd (s : State) (e : BitVec 3) : State :=
  let l := s.launch
  { s with launch := { l with pendingEnd := if l.pendingEnd < e then e else l.pendingEnd, st := 3 } }

/-- The destination bytes of a transfer of tile p. (DESIGN CHOICE, log 38). -/
def destBytes (s : State) (p : TileId) (x : Transfer) : List Nat :=
  match s.etype x.dst.desc.etype with
  | some t => x.dst.bytes p t
  | none => []

/-- Drop read slots (R168, R217): the transfers in them never complete and their destinations are unpredictable.
(DESIGN CHOICE, log 38). -/
def dropSlots (s : State) (p : TileId) (which : Transfer → Bool) : State :=
  let t := s.tile p
  let gone := t.rslots.toList.filterMap fun r => match r with
    | some x => if which x then some x else none
    | none => none
  let s := gone.foldl (fun s x => s.scramble (s.destBytes p x)) s
  s.modTile p fun t =>
    { t with
      rslots := t.rslots.map fun r => match r with
        | some x => if which x then none else r
        | none => r
      wslots := t.wslots.mapIdx fun i w =>
        if gone.any fun x => x.wslot.any fun y => y.1 == i then .idle else w }

/-- The collectives, routing calls and update requests of a tile end with it: the areas of an open collective are unpredictable but
confined to them (R171). -/
def dropPortWork (s : State) (p : TileId) : State :=
  let gone := s.fabric.colls.filter fun c => c.p == p
  let s := gone.foldl (fun s c => s.scramble (c.dests.flatMap fun d => (List.range d.2).map (d.1 + ·))) s
  { s with
    fabric := { s.fabric with waiting := s.fabric.waiting.filter fun w => w.p != p,
                              colls := s.fabric.colls.filter fun c => c.p != p }
    rtu := { s.rtu with calls := s.rtu.calls.filter fun c => c.p != p }
    steps := { s.steps with units := s.steps.units.filter fun u => match u.owner with
                                | some x => x.1 != p
                                | none => true } }

/-- A tile's queued work is discarded: queue entries not started, slots, held items (R171, R173). (DESIGN CHOICE, log 38). -/
def discardWork (s : State) (p : TileId) : State :=
  ((s.dropSlots p fun _ => true).dropPortWork p).modTile p fun t =>
    { t with held := [], claims := [], waiting := [], collWait := [], enterRequested := false, enterAnswer := none,
             signals := t.signals.filter (·.sent), statMerges := [], portWork := [],
             wslots := Vector.replicate 8 .idle }

/-- A tile stops issuing and drains as by CANCEL (R171): one that has halted or faulted stays so. (DESIGN CHOICE, log 38). -/
def drainTile (s : State) (p : TileId) : State :=
  if (s.tile p).state = .idle ∨ (s.tile p).state = .drained then s
  else
    (s.discardWork p).modTile p fun t => { t with state := if t.state = .halted ∨ t.state = .faulted then t.state else .drained }

/-- Drain every tile of the launch's set. -/
def drainSet (s : State) : State := s.jobTiles.foldl drainTile s

/-- Drain every tile of the launch's set but p (R172, R173). -/
def drainOthers (s : State) (p : TileId) : State := (s.jobTiles.filter (· != p)).foldl drainTile s

/-- The first fault report of the launch fills HST_LAUNCH_FAULT (R172, R174). -/
def reportFault (s : State) (tileNo : Nat) (cause : Byte) (hardware : Bool) : State :=
  if s.launch.faultValid then s
  else
    { s with launch := { s.launch with faultTile := BitVec.ofNat 11 tileNo, faultCause := cause,
                                       faultHardware := hardware, faultValid := true } }

/-- A tile stops at a fault and records it (R172, R173). A record already valid stays, but for that of a program fault where a hardware
fault follows (R174). (DESIGN CHOICE, log 102). -/
def stopTileAt (s : State) (p : TileId) (cause : Byte) (hardware : Bool) (pc : BitVec 48) (insn : W64) : State :=
  s.modTile p fun t =>
    { t with state := .faulted,
             fault := if t.fault.valid && (t.fault.hardware || !hardware) then t.fault else ⟨true, hardware, cause, pc, insn⟩ }

def stopTile (s : State) (p : TileId) (cause : Byte) (hardware : Bool) (insn : W64) : State :=
  s.stopTileAt p cause hardware ((s.tile p).pc.truncate 48) insn

/-- A program fault at issue (R109, R172): recorded, reported, every other tile drained, the launch draining to
PROGFAULT. The tile's work already queued completes. -/
def programFault (s : State) (p : TileId) (cause : Byte) (insn : W64) : State :=
  ((((s.stopTile p cause false insn).reportFault p.1 cause false).noteEnd 3).drainOthers p)

/-- A program fault of an instruction issued before, at `pc` (R353). -/
def programFaultAt (s : State) (p : TileId) (cause : Byte) (pc : BitVec 48) (insn : W64) : State :=
  ((((s.stopTileAt p cause false pc insn).reportFault p.1 cause false).noteEnd 3).drainOthers p)

/-- A hardware fault located in a tile of the running launch (R173): the tile's own queued work is dropped too. A fault that no
instruction meets as it runs records the tile's PC and INSN 0 (DESIGN CHOICE, log 102). -/
def tileHwFault (s : State) (p : TileId) (cause : Byte) : State :=
  let s := (s.discardWork p).stopTile p cause true 0
  ((s.reportFault p.1 cause true).noteEnd 4).drainOthers p

/-- Whether a launch is running in the sense of R258: from acceptance until IDLE. -/
def launchActive (s : State) : Bool := s.launch.run && decide (2 ≤ s.launch.st.toNat)

/-- A hardware cause not located in a tile (R174): TILE 0x7FF, no TLE_FAULT. -/
def moduleHwFault (s : State) (cause : Byte) : State :=
  if s.launchActive then ((s.reportFault 0x7FF cause true).noteEnd 4).drainSet else s

/-- A program cause not located in a tile (R174: 0x78 to 0x7A). -/
def moduleProgFault (s : State) (cause : Byte) : State :=
  if s.launchActive then ((s.reportFault 0x7FF cause false).noteEnd 3).drainSet else s

/-- End the launch as by CANCEL (R171). -/
def cancelLaunch (s : State) : State := if s.launchActive then (s.noteEnd 2).drainSet else s

/-! ### Uncorrectable reads (R258) -/

/-- Record an uncorrectable access at its port. (DEDUCED, log 56). -/
def recordUe (s : State) (a : Nat) : State :=
  s.modPort (channelOf a) fun q =>
    { q with ue := satAdd32 q.ue 1,
             ueAddr := if q.ueValid then q.ueAddr else BitVec.ofNat 48 (a / 64 * 64),
             ueValid := true }

/-- The poisoned lines that a list of read bytes meets, each once. -/
def poisonedLines (s : State) (addrs : List Nat) : List Nat :=
  s.poisoned.filter fun l => addrs.any fun a => a / 64 == l

/-- The recording and the fault of a read by tile p that met the given poisoned lines (R258, R174). -/
def tilePoison (s : State) (p : TileId) : List Nat → State
  | [] => s
  | ls =>
    let s := ls.foldl (fun s l => s.recordUe (64 * l)) s
    if s.launchActive then s.tileHwFault p 0x86 else s

def readByTile (s : State) (p : TileId) (addrs : List Nat) : State := s.tilePoison p (s.poisonedLines addrs)

/-- The same for a port unit, a fabric port or the host complex. -/
def modulePoison (s : State) : List Nat → State
  | [] => s
  | ls => (ls.foldl (fun s l => s.recordUe (64 * l)) s).moduleHwFault 0x86

def readByModule (s : State) (addrs : List Nat) : State := s.modulePoison (s.poisonedLines addrs)

end State

/-! ### Element access through a descriptor -/

namespace State

/-- The code of one element through a window: PADV's code at a pad cell (R203). -/
def rdCode (s : State) (p : TileId) (t : EType) (w : Window) (a b : Nat) : Nat :=
  if w.desc.isPad a b then padCode t w.desc.padv
  else
    let bit := w.desc.bitAddr t.width w.half a b
    s.rdBits (fun x => w.desc.phys p (w.desc.byteOf bit x)) bit t.width

/-- The bit address of the first element of the block that holds a view position. -/
def blockBit (t : EType) (w : Window) (a b : Nat) : Nat :=
  let i0 := (w.desc.index a b).getD 0 0
  w.desc.bitAddr t.width w.half (a - i0 % t.block) b

/-- The scale code of the block that holds a view position; 0 at a pad cell (R206) or unblocked. -/
def rdScale (s : State) (p : TileId) (t : EType) (w : Window) (a b : Nat) : Nat :=
  if t.block = 0 then 0
  else if w.desc.isPad a b then 0
  else leNat ((List.range t.scaleBytes).map fun k =>
    s.rd (w.desc.phys p (w.desc.scaleAddr t (blockBit t w a b) + k)))

/-- The value of one element, its block scale included. -/
def rdElem (s : State) (p : TileId) (t : EType) (w : Window) (a b : Nat) : FVal :=
  t.decode (s.rdScale p t w a b) (s.rdCode p t w a b)

/-- Store one element's code by the padding rule of R212. -/
def wrCode (s : State) (p : TileId) (t : EType) (w : Window) (a b code : Nat) : State :=
  let pad := w.desc.isPad a b
  if pad && !w.desc.padWrite then s
  else
    let bit := w.desc.bitAddr t.width w.half a b
    s.wrBits (fun x => w.desc.phys p (w.desc.byteOf bit x)) bit t.width (if pad then padCode t w.desc.padv else code)

/-- Store the scale code of the block that begins at a view position (R206, R212). -/
def wrScale (s : State) (p : TileId) (t : EType) (w : Window) (a b code : Nat) : State :=
  let pad := w.desc.isPad a b
  if pad && !w.desc.padWrite then s
  else
    let at0 := w.desc.scaleAddr t (w.desc.bitAddr t.width w.half a b)
    let c := if pad then 0 else code
    (List.range t.scaleBytes).foldl (fun s k => s.wr (w.desc.phys p (at0 + k)) (BitVec.ofNat 8 (c / 256 ^ k))) s

/-- Clear the poison of lines a window write covers whole. -/
def settleWrites (s : State) (p : TileId) (t : EType) (w : Window) : State :=
  if s.poisoned = [] then s
  else
    let l := w.bytes p t
    s.clearPoison fun a => l.contains a

end State

end Sys2Proof.Machine
end

