-- ==== Sys2Proof/Machine/FabricPlan.lean ====
section
/-!
DEFINITION. Fabric plans: the directory, a copy's fields and its validity (R320 to R324, R347).
-/
namespace Sys2Proof.Machine

namespace Plan

def seq (p : Image) : Nat := Image.field p 4 4
def nmemb (p : Image) : Nat := Image.field p 8 1
def minrank (p : Image) : Nat := Image.field p 9 1
def close (p : Image) : Bool := (Image.field p 0x0A 1).testBit 0
def auth (p : Image) : Bool := (Image.field p 0x0A 1).testBit 1
def noForeign (p : Image) : Bool := (Image.field p 0x0A 1).testBit 2
def nmod (p : Image) : Nat := Image.field p 0x0B 1
def ngroup (p : Image) : Nat := Image.field p 0x0C 1
def nstage (p : Image) : Nat := Image.field p 0x0D 1
def nlayer (p : Image) : Nat := Image.field p 0x0E 2
def joinms (p : Image) : Nat := Image.field p 0x10 2
/-- The length of a copy with this NMEMB (R321). -/
def length (nmemb : Nat) : Nat := 0x8E8 + 32 * nmemb * nmemb
def check (p : Image) : BitVec 64 := BitVec.ofNat 64 (Image.field p (0x8E0 + 32 * nmemb p * nmemb p) 8)
def fpr (p : Image) (i : Nat) : List Byte := (p.drop (0x40 + 64 * i)).take 48
def stage (p : Image) (i : Nat) : Nat := Image.field p (0x40 + 64 * i + 0x30) 1
def mask (p : Image) (g : Nat) : Nat := Image.field p (0x840 + 8 * g) 4
def groupKind (p : Image) (g : Nat) : Nat := Image.field p (0x840 + 8 * g + 4) 1
def routeOff (p : Image) (s d : Nat) : Nat := 0x8C0 + 32 * (nmemb p * s + d)
def dplanes (p : Image) (s d : Nat) : Nat := Image.field p (routeOff p s d) 2
def dweight (p : Image) (s d : Nat) : Nat := Image.field p (routeOff p s d + 2) 1
def ngraft (p : Image) (s d : Nat) : Nat := Image.field p (routeOff p s d + 3) 1
def graft (p : Image) (s d g : Nat) : Nat := Image.field p (routeOff p s d + 4 + 4 * g) 4
def relay (p : Image) (s d g : Nat) : Nat := graft p s d g % 32
def weight (p : Image) (s d g : Nat) : Nat := graft p s d g / 256 % 16
def stg (p : Image) (k : Nat) : Nat := Image.field p (0x8C0 + 32 * nmemb p * nmemb p + 2 * k) 2

/-- The layers of stage `k` by the balancing rule (R347). -/
def balance (nlayer n k : Nat) : Nat :=
  let w := n * (3 * n - 1) / 2
  let share (i : Nat) : Nat := nlayer * (n + i) / w
  let left := nlayer - ((List.range n).map share).foldl (· + ·) 0
  -- each layer still unassigned goes to one stage, from the last stage downward
  share k + left / n + (if n - 1 - k < left % n then 1 else 0)

/-- Every byte of a region is zero. -/
def zero (p : Image) (off n : Nat) : Bool := Image.field p off n == 0

def routeValid (p : Image) (s d : Nat) : Bool :=
  let o := routeOff p s d
  if s = d then zero p o 32
  else
    let n := ngraft p s d
    let ws := (List.range n).map (weight p s d)
    let rs := (List.range n).map (relay p s d)
    decide (dweight p s d ≤ 15) && decide (n ≤ 7) &&
      decide (1 ≤ dweight p s d + ws.foldl (· + ·) 0) && ((dplanes p s d != 0) == decide (0 < dweight p s d)) &&
      (List.range 7).all fun g =>
        if g < n then
          let x := graft p s d g
          x == x % 32 + x / 256 % 16 * 256 && decide (1 ≤ weight p s d g) && decide (relay p s d g < nmod p) &&
            relay p s d g != s && relay p s d g != d && (rs.filter (· == relay p s d g)).length == 1 &&
            (!noForeign p || decide (relay p s d g < nmemb p))
        else graft p s d g == 0

/-- The validity of a plan copy (R324), its bytes given. -/
def valid (p : Image) : Bool :=
  let n := nmemb p
  let m := nmod p
  let len := length n
  Image.field p 0 4 == 0x31504246 && decide (1 ≤ n) && decide (n ≤ 32) && p.length == len &&
    check p == crc64 (p.take (len - 8)) &&
    decide (1 ≤ minrank p) && decide (minrank p ≤ n) && decide (Image.field p 0x0A 1 < 8) &&
    decide (n ≤ m) && decide (m ≤ 32) && decide (1 ≤ ngroup p) && decide (ngroup p ≤ 16) &&
    (nstage p == 0 || (decide (2 ≤ nstage p) && decide (nstage p ≤ 16))) &&
    decide (1 ≤ joinms p) && decide (joinms p ≤ 60000) && zero p 0x12 46 &&
    ((List.range 32).all fun i =>
      if i < m then !zero p (0x40 + 64 * i) 48 && zero p (0x40 + 64 * i + 0x31) 15 &&
        ((List.range i).all fun j => fpr p j != fpr p i) &&
        (if i < n ∧ nstage p ≠ 0 then decide (stage p i < nstage p) else stage p i == 0)
      else zero p (0x40 + 64 * i) 64) &&
    ((List.range 16).all fun g =>
      if g < ngroup p then mask p g != 0 && decide (mask p g < 2 ^ n) && decide (groupKind p g ≤ 1) &&
        zero p (0x840 + 8 * g + 5) 3
      else zero p (0x840 + 8 * g) 8) &&
    ((List.range n).all fun s => (List.range n).all fun d => routeValid p s d) &&
    (if nstage p = 0 then nlayer p == 0 && zero p (0x8C0 + 32 * n * n) 32
      else
        let members (k : Nat) : Nat := ((List.range n).filter fun i => stage p i == k).length
        !close p && decide (1 ≤ members 0) && ((List.range (nstage p)).all fun k => members k == members 0) &&
          (List.range 16).all fun k => stg p k == if k < nstage p then balance (nlayer p) (nstage p) k else 0)

end Plan

/-- The bytes of the plan copy at an address: the header tells its length. COPY1 = 0 names no copy; COPY0 names its copy at any
address. -/
def State.planAt (s : State) (a : Nat) : Option Image :=
  if a % 64 ≠ 0 ∨ !s.inDdr a 64 then none
  else
    let len := Plan.length (s.rdNat (a + 8) 1)
    if !s.inDdr a len then none
    else
      let p := s.rdBytes a len
      if Plan.valid p then some p else none

/-- The plan directory is valid (R320). -/
def State.planDirValid (s : State) (dir : Nat) : Bool :=
  s.inDdr dir 64 && dir % 64 == 0 && s.rdNat dir 4 == 0x31444650 && s.rdNat (dir + 4) 4 == 0 && s.rdNat (dir + 0x18) 40 == 0

/-- The plan directory's selection (R320): the valid copy with the larger SEQ, copy 0 on a tie; the flag tells copy 1.
(DEDUCED, log 67). -/
def State.selectPlan (s : State) (dir : Nat) : Option (Image × Bool) :=
  if !s.planDirValid dir then none
  else
    match s.planAt (s.rdNat (dir + 8) 8), (if s.rdNat (dir + 0x10) 8 = 0 then none else s.planAt (s.rdNat (dir + 0x10) 8)) with
    | some a, some b => if Plan.seq a < Plan.seq b then some (b, true) else some (a, false)
    | some a, none => some (a, false)
    | none, some b => some (b, true)
    | none, none => none

end Sys2Proof.Machine
end

