-- ==== Sys2Proof/Machine/Link.lean ====
section
/-!
DEFINITION. The link layer of a lane pair: sequence numbers, replay and credits (R310 to R314).
-/
namespace Sys2Proof.Machine

def pairKey (q : PlaneId) (c : PairId) : Nat := 32 * q.1 + c.1

namespace State

def pair (s : State) (q : PlaneId) (c : PairId) : Pair := Sparse.get Pair.reset s.light.pairs (pairKey q c)
def setPair (s : State) (q : PlaneId) (c : PairId) (x : Pair) : State :=
  { s with light := { s.light with pairs := Sparse.set Pair.reset s.light.pairs (pairKey q c) x } }
def modPair (s : State) (q : PlaneId) (c : PairId) (f : Pair → Pair) : State := s.setPair q c (f (s.pair q c))

def plane (s : State) (q : PlaneId) : Plane := s.light.planes[q]
def modPlane (s : State) (q : PlaneId) (f : Plane → Plane) : State :=
  { s with light := { s.light with planes := s.light.planes.set q (f (s.light.planes[q])) } }

end State

/-- The link header a pair sends now (R311). -/
def Pair.header (x : Pair) (seq : BitVec 16) (nak replay : Bool) : LinkHeader :=
  ⟨seq, x.rxNext - 1, nak, replay, x.freed, x.margin⟩

/-- A pair may take a new frame: UP, the peer reporting UP, nothing left to resend, a credit, and room in the replay buffer (R298,
R312, R313). -/
def Pair.canSend (x : Pair) : Bool :=
  x.state == .up && x.peerRx == 2 && x.toResend == 0 && decide (0 < x.credits) && decide (x.unacked.length < 256)

namespace State

def logSent (s : State) (q : PlaneId) (c : PairId) (h : LinkHeader) (f : Option Frame) : State :=
  { s with light := { s.light with sent := s.light.sent ++ [⟨q, c, h, f⟩] } }

/-- Send a new data frame on a pair that can take it. -/
def linkSend (s : State) (q : PlaneId) (c : PairId) (f : Frame) (origin : Option (PlaneId × PairId)) : State :=
  let x := s.pair q c
  if x.canSend then
    (s.logSent q c (x.header x.txSeq false false) (some f)).setPair q c
      { x with txSeq := x.txSeq + 1, unacked := x.unacked ++ [⟨x.txSeq, f, origin⟩], credits := x.credits - 1,
               ackDue := false }
  else s

/-- Resend one waiting frame, if there is one and a credit for it. -/
def linkResendOne (s : State) (q : PlaneId) (c : PairId) : State :=
  let x := s.pair q c
  if x.state = .up ∧ x.peerRx = 2 ∧ 0 < x.toResend ∧ 0 < x.credits then
    match x.unacked[x.unacked.length - x.toResend]? with
    | some u =>
      (s.logSent q c (x.header u.seq false true) (some u.frame)).setPair q c
        { x with toResend := x.toResend - 1, resent := if x.toResend ≤ 1 then none else x.resent, credits := x.credits - 1,
                 replayed := satAdd32 x.replayed 1 }
    | none => s.setPair q c { x with toResend := 0, resent := none }
  else s

/-- Resend waiting frames, oldest first, as far as the credits reach. -/
def linkResend (s : State) (q : PlaneId) (c : PairId) : State :=
  (List.range (s.pair q c).toResend).foldl (fun s _ => s.linkResendOne q c) s

/-- Start a resend of every unacknowledged frame (R301, R312). -/
def linkReplay (s : State) (q : PlaneId) (c : PairId) : State :=
  (s.modPair q c fun x =>
    { x with toResend := x.unacked.length, resent := x.unacked.head?.map (·.seq) }).linkResend q c

end State

/-- Whether sequence number `a` is at or behind `b` within the 256-frame window. -/
def seqLe (a b : BitVec 16) : Bool := decide ((b - a).toNat < 256)

/-- A started resend still matters once `left` is unacknowledged: of one that a NAK started, nothing was acknowledged since; of
one that the timeout started, not all of it (R309). -/
def Resend.lives (r : Resend) (x : Pair) (left : List SentFrame) : Bool :=
  if r.byNak then left.length == x.unacked.length && !left.isEmpty
  else left.any fun u => decide ((u.seq - r.first).toNat < (r.next - r.first).toNat)

/-- The acknowledgement, the credits and the margin that a header carries (R311 to R313). (DEDUCED, log 61). -/
def Pair.takeHeader (x : Pair) (h : LinkHeader) : Pair :=
  let left := x.unacked.dropWhile fun u => seqLe u.seq h.ack
  let wait := min x.toResend left.length
  { x with unacked := left, toResend := wait, resent := if wait = 0 then none else x.resent,
           lastResend := x.lastResend.filter fun r => r.lives x left,
           credits := x.credits + (h.credit - x.lastCredit).toNat, lastCredit := h.credit, peerMargin := h.margin }

/-- The frames that an acknowledgement covers. -/
def Pair.ackedBy (x : Pair) (h : LinkHeader) : List SentFrame := x.unacked.takeWhile fun u => seqLe u.seq h.ack

/-- The resend that an event started from here. -/
def Pair.noteResend (x : Pair) (byNak : Bool) : Pair :=
  { x with lastResend := x.unacked.head?.map fun u => ⟨byNak, u.seq, x.txSeq⟩ }

/-- A NAK and the timeout are for the same frames (R309): the timeout's resend covers the sequence of the NAK. (DEDUCED, log 61). -/
def Pair.nakMeetsTimeout (x : Pair) (h : LinkHeader) : Bool := match x.lastResend with
  | some r => !r.byNak && decide ((h.ack + 1 - r.first).toNat < (r.next - r.first).toNat)
  | none => false

/-- The same with the NAK first: its resend began with the oldest frame, and nothing was acknowledged since. (DEDUCED, log 61). -/
def Pair.timeoutMeetsNak (x : Pair) : Bool := match x.lastResend with
  | some r => r.byNak && x.unacked.head?.map (·.seq) == some r.first
  | none => false

/-- A resend that still runs covers the sequence of a NAK (R312). -/
def Pair.resendCovers (x : Pair) (h : LinkHeader) : Bool := match x.resent with
  | some s0 => seqLe s0 (h.ack + 1)
  | none => false

/-- What follows a NAK (R309, R312): a resend of every unacknowledged frame, unless one that runs covers its sequence, or the
timeout has just resent the same frames. -/
def State.takeNak (s : State) (q : PlaneId) (c : PairId) (h : LinkHeader) : State :=
  let x := s.pair q c
  if x.resendCovers h then s.linkResend q c
  else if x.nakMeetsTimeout h then (s.setPair q c { x with lastResend := none }).linkResend q c
  else (s.setPair q c (x.noteResend true)).linkReplay q c

/-- What follows 4 µs without ACK progress (R309, R312): a resend from the oldest frame, unless one that runs began there, or a
NAK has just had the same frames resent. -/
def State.takeTimeout (s : State) (q : PlaneId) (c : PairId) : State :=
  let x := s.pair q c
  if decide (0 < x.toResend) && x.resent == x.unacked.head?.map (·.seq) then s
  else if x.timeoutMeetsNak then s.setPair q c { x with lastResend := none }
  else (s.setPair q c (x.noteResend false)).linkReplay q c

/-- A frame ahead asks for a NAK, at most once per 2 µs, 157 codewords of 12.8 ns, for each gap (R312). (DEDUCED, log 61). -/
def Pair.askAgain (x : Pair) : Pair :=
  if x.nakFor = some x.rxNext ∧ x.nakWait ≠ 0 then x else { x with nakDue := true, nakFor := some x.rxNext, nakWait := 157 }

/-- The lane data of a received codeword is discarded and counted in FEC_UNC (R293). -/
def dataDiscarded (w : Codeword) : Bool :=
  !w.correctable || (decide (640 ≤ w.fso.toNat) && w.fso != 0x3FF) || w.kind == 3

/-- A frame whose first byte came `ago` bytes before the end of the lane data received so far overlaps lane data that was
discarded (R293). -/
def Pair.overlaps (x : Pair) (ago : Nat) : Bool := match x.clean with
  | some n => decide (n < ago)
  | none => false

/-- A pair enters UP after its margin test: sequence and credit state reset (R302, R312, R313). -/
def Pair.enterUp (x : Pair) : Pair :=
  { x with state := .up, txSeq := 0, unacked := [], credits := 32, lastCredit := 0, resent := none, toResend := 0,
           lastResend := none, rxNext := 0, freed := 0, ackDue := false, nakDue := false, nakFor := none, nakWait := 0, failed := false,
           outMargin := false, recent := [] }

end Sys2Proof.Machine
end

