-- ==== Sys2Proof/Machine/Transport.lean ====
section
/-!
DEFINITION. The transport: the peer map, ranks, paths and their weights, sending, relaying and the loss of a peer
(R318, R327 to R334, R350).
-/
namespace Sys2Proof.Machine

/-! ### Messages without a body of their own (R332, R339, R340, R345, R348, R351) -/

/-- The frame of a message: its KIND, its collective, ARG and payload. (DESIGN CHOICE, log 66). -/
def messageOf (o : Origin) (kind group : BitVec 8) (coll : BitVec 32) (arg : BitVec 64) (payload : List Byte) : Frame :=
  { tag := o.tag, kind := kind, via := false, src := o.src, dst := o.dst, group := group, nblk := 0, dstid := 0, coll := coll,
    fidx := o.fidx, arg := arg, nfmask := 0, payload := payload, shape := o.shape }

def grantOf (o : Origin) (group : BitVec 8) (coll : BitVec 32) (bound : BitVec 64) : Frame := messageOf o 2 group coll bound []
def skipOf (o : Origin) (group : BitVec 8) (coll : BitVec 32) (b0 nb : BitVec 64) : Frame :=
  messageOf o 3 group coll b0 (leBytes nb.toNat 8)
def endOf (o : Origin) (group : BitVec 8) (coll : BitVec 32) : Frame := messageOf o 4 group coll 0 []
def abortOf (o : Origin) (endCode : BitVec 3) : Frame := messageOf o 7 0 0 0 (leBytes endCode.toNat 1)

def allPlanes : List PlaneId := List.finRange 16
def allPairs : List PairId := List.finRange 32

namespace State

def mapEntry (s : State) (q : PlaneId) (c : PairId) : MapEntry := Sparse.get MapEntry.reset s.fabric.map (pairKey q c)
def setMapEntry (s : State) (q : PlaneId) (c : PairId) (m : MapEntry) : State :=
  { s with fabric := { s.fabric with map := Sparse.set MapEntry.reset s.fabric.map (pairKey q c) m } }

def modFabric (s : State) (f : Fabric → Fabric) : State := { s with fabric := f s.fabric }

/-- The data pairs mapped to a peer-table entry. -/
def pairsTo (s : State) (peer : Nat) : List (PlaneId × PairId) :=
  allPlanes.flatMap fun q => (allPairs.filter fun c =>
    c != 0 && (s.mapEntry q c).valid && (s.mapEntry q c).peer == peer).map fun c => (q, c)

/-- The peer-table entry of a fingerprint. -/
def peerOf (s : State) (fpr : List Byte) : Option Nat := s.fabric.peers.findIdx? (· == fpr)

/-- The pairs mapped to a fingerprint. -/
def pairsOf (s : State) (fpr : List Byte) : List (PlaneId × PairId) := match s.peerOf fpr with
  | some i => s.pairsTo i
  | none => []

def isUp (s : State) (x : PlaneId × PairId) : Bool := (s.pair x.1 x.2).state == .up

end State

/-- The plan ranks of a mask in ascending order. -/
def maskRanks (m : W32) : List Nat := (List.range 32).filter fun i => m.getLsbD i

/-- The members of J, by plan rank; none before J is formed. -/
def Join.members (j : Join) : List Nat := match j.j with
  | some m => maskRanks m
  | none => []

/-- The plan rank of a job rank, and back (R327). -/
def Join.planRank (j : Join) (r : Nat) : Option Nat := j.members[r]?
def Join.jobRank (j : Join) (plan : Nat) : Option Nat := j.members.findIdx? (· == plan)
def Join.ownRank (j : Join) : Nat := (j.jobRank j.rank).getD 0

/-- A record of the plan is present: its member bit, or its relay bit (R325, R328). -/
def Join.recordPresent (j : Join) (r : Nat) : Bool :=
  if r < Plan.nmemb j.plan then match j.j with
    | some m => m.getLsbD r
    | none => j.present.getLsbD r
  else j.relays.getLsbD r

namespace State

/-- The paths from this module to the member of plan rank d, by the plan (R323, R328). -/
def pathsTo (s : State) (j : Join) (d : Nat) : List Path :=
  let planes := Plan.dplanes j.plan j.rank d
  ⟨Plan.dweight j.plan j.rank d, (s.pairsOf (Plan.fpr j.plan d)).filter fun x => planes.testBit x.1.1, none⟩ ::
    (List.range (Plan.ngraft j.plan j.rank d)).map fun g =>
      let r := Plan.relay j.plan j.rank d g
      let dead := !j.recordPresent r || j.deadGrafts.contains (d, r)
      ⟨if dead then 0 else Plan.weight j.plan j.rank d g, s.pairsOf (Plan.fpr j.plan r), some r⟩

/-- A path's weight counts only while its first hop has an UP pair. (DESIGN CHOICE, log 63). -/
def effWeight (s : State) (p : Path) : Nat := if p.hops.any s.isUp then p.weight else 0

end State

/-- Smooth weighted round robin: the index picked and the new credits; none with no weight. (DESIGN CHOICE, log 63). -/
def wrrPick (weights : List Nat) (credit : List Int) : Option (Nat × List Int) :=
  let total : Int := (weights.foldl (· + ·) 0 : Nat)
  if total = 0 then none
  else
    let cur := weights.zipIdx.map fun x => if x.1 = 0 then 0 else credit.getD x.2 0 + (x.1 : Int)
    let best := weights.zipIdx.foldl (fun (b : Option Nat) x =>
      if x.1 = 0 then b
      else match b with
        | none => some x.2
        | some k => if cur.getD k 0 < cur.getD x.2 0 then some x.2 else some k) none
    match best with
    | some k => some (k, cur.set k (cur.getD k 0 - total))
    | none => none

namespace State

/-- The UP pair of a path that has the most credit, ties to the lowest plane (R329). -/
def bestPair (s : State) (hops : List (PlaneId × PairId)) : Option (PlaneId × PairId) :=
  hops.foldl (fun b x =>
    if !(s.pair x.1 x.2).canSend then b
    else match b with
      | none => some x
      | some y => if (s.pair y.1 y.2).credits < (s.pair x.1 x.2).credits then some x else some y) none

/-- An own frame leaves on a pair, by a graft or directly. -/
def sendOwn (s : State) (q : PlaneId) (c : PairId) (via : Bool) (f : Frame) : State :=
  (s.linkSend q c { f with via := via } none).modFabric fun b =>
    { b with txFrames := b.txFrames.set q (b.txFrames[q] + 1),
             grafted := if via then b.grafted ++ [{ f with via := true }] else b.grafted }

/-- Give one frame to the path that the round robin of the member of plan rank d picks; none where it must wait (R301, R329). -/
def trySend (s : State) (d : Nat) (f : Frame) : Option State :=
  match s.fabric.job with
  | none => none
  | some j =>
    let paths := s.pathsTo j d
    let credit := match j.wrr.find? fun x => x.1 == d with
      | some x => x.2
      | none => []
    match wrrPick (paths.map s.effWeight) credit with
    | none => none
    | some (k, credit) => match paths[k]? with
      | none => none
      | some p => (s.bestPair p.hops).map fun x =>
        (s.sendOwn x.1 x.2 p.graft.isSome f).modFabric fun b =>
          { b with job := some { j with wrr := (d, credit) :: j.wrr.filter fun x => x.1 != d } }

/-- Send a frame to a plan rank, or leave it waiting behind earlier frames to that member. -/
def sendNow (s : State) (d : Nat) (f : Frame) : State :=
  let wait := s.modFabric fun b => { b with backlog := b.backlog ++ [(d, f)] }
  if s.fabric.backlog.any fun x => x.1 == d then wait else (s.trySend d f).getD wait

/-- A graft that a NOROUTE closed opens again once a pair of its relay to d has changed state (R330). No rule says how the sender
learns of that: whether it has happened is free at every later frame to d. (DESIGN CHOICE, log 63). -/
def reviveGrafts (s : State) (d : Nat) : State :=
  match s.fabric.job with
  | none => s
  | some j =>
    if j.deadGrafts.any fun x => x.1 == d then
      let v := Config.freeValue s.freeCtr
      ({ s with freeCtr := s.freeCtr + 1 } : State).modFabric fun b =>
        { b with job := some { j with deadGrafts := j.deadGrafts.filter fun x => x.1 != d || !v.getLsbD x.2 } }
    else s

/-- Send a frame to a plan rank, by whatever grafts are open again. -/
def sendPlan (s : State) (d : Nat) (f : Frame) : State := (s.reviveGrafts d).sendNow d f

/-- Send a frame to a job rank. -/
def sendTo (s : State) (rank : Nat) (f : Frame) : State :=
  match s.fabric.job.bind (·.planRank rank) with
  | some d => s.sendPlan d f
  | none => s

end State

/-- The planes a relay tries: q itself, then rim order 0 to 7, 15 to 8 after q (R330). -/
def rimOrder (q : PlaneId) : List PlaneId :=
  let ring : List PlaneId := [0, 1, 2, 3, 4, 5, 6, 7, 15, 14, 13, 12, 11, 10, 9, 8]
  let k := (ring.findIdx? (· == q)).getD 0
  q :: (ring.drop (k + 1) ++ ring.take k)

/-- Bytes 0x10 to 0x3F of a frame's header (R332). -/
def headerBytes (f : Frame) : List Byte :=
  leBytes f.tag.toNat 2 ++ [f.kind, if f.via then 1 else 0, f.src, f.dst, f.group, f.nblk] ++ leBytes f.dstid.toNat 8 ++
    leBytes f.coll.toNat 4 ++ leBytes f.fidx.toNat 4 ++ leBytes f.arg.toNat 8 ++ leBytes f.nfmask.toNat 16

/-- The first 8 bytes of a fingerprint as DSTID (R332). -/
def dstId (fpr : List Byte) : BitVec 64 := BitVec.ofNat 64 (leNat (fpr.take 8))

/-- A relayed frame counts its header and payload over the rim, in 64-byte units (R331). (DESIGN CHOICE, log 63). -/
def rimUnits : Nat := 33

namespace State

/-- The pair over which a relay forwards a frame for DSTID: none where no pair of the relay to it is UP; the inner
option is none while every such pair waits for credit. -/
def relayPair (s : State) (q : PlaneId) (dst : BitVec 64) : Option (Option (PlaneId × PairId)) :=
  match s.fabric.peers.findIdx? fun f => dstId f == dst with
  | none => none
  | some i =>
    let ps := s.pairsTo i
    match (rimOrder q).find? fun r => ps.any fun x => x.1 == r && s.isUp x with
    | none => none
    | some r => some (s.bestPair (ps.filter fun x => x.1 == r))

/-- The NOROUTE that a relay returns to the sender of a graft frame (R330): of the frame's tag, with SRC and DST exchanged so that
it passes R334, and with the frame's header bytes 0x10 to 0x3F as its payload, by which its sender knows the frame.
(DESIGN CHOICE, log 66). -/
def norouteOf (sender : List Byte) (f : Frame) : Frame :=
  { tag := f.tag, kind := 5, via := false, src := f.dst, dst := f.src, group := 0, nblk := 0, dstid := dstId sender, coll := 0,
    fidx := 0, arg := 0, nfmask := 0, payload := headerBytes f }

/-- The frame sent by a graft that a NOROUTE names. (DESIGN CHOICE, log 66). -/
def returned (s : State) (m : Frame) : Option Frame := s.fabric.grafted.find? fun f => headerBytes f == m.payload.take 48

/-- The fingerprint of the peer that a pair is mapped to. -/
def peerFpr (s : State) (q : PlaneId) (c : PairId) : List Byte := s.fabric.peers.getD (s.mapEntry q c).peer []

/-- Forward one graft frame that came in on (q, c), return a NOROUTE on that pair, or let it wait (R330, R331). A NOROUTE that its
pair hands back goes over another pair to the same peer (log 64). -/
def relayFrame (s : State) (q : PlaneId) (c : PairId) (f : Frame) : State :=
  let wait := s.modFabric fun b => { b with relayWait := b.relayWait ++ [(q, c, f)] }
  if f.kind = 5 then
    match s.bestPair (s.pairsTo (s.mapEntry q c).peer) with
    | some x => s.linkSend x.1 x.2 f (some (q, c))
    | none => wait
  else match s.relayPair q f.dstid with
    | none =>
      if (s.pair q c).canSend then
        (s.linkSend q c (norouteOf (s.peerFpr q c) f) (some (q, c))).modFabric fun b => { b with noroute := satAdd32 b.noroute 1 }
      else wait
    | some none => wait
    | some (some (r, k)) =>
      let own := match s.job with
        | some j => j.jobtag == f.tag
        | none => false
      (s.linkSend r k { f with via := false } (some (q, c))).modFabric fun b =>
        let b := { b with rimTag := f.tag }
        if own then { b with rimOwn := b.rimOwn + BitVec.ofNat 32 rimUnits }
        else { b with rimForeign := b.rimForeign + BitVec.ofNat 32 rimUnits }

end State

/-- The frames that wait at the rim in round-robin order by tag (R331): of each next tag after the one last served, its oldest. -/
def rimTurns : Nat → BitVec 16 → List (PlaneId × PairId × Frame) → List (PlaneId × PairId × Frame)
  | 0, _, l => l
  | _, _, [] => []
  | n + 1, last, x :: l =>
    let gap (y : PlaneId × PairId × Frame) : Nat := (y.2.2.tag - last - 1).toNat
    let best := l.foldl (fun b y => if gap y < gap b then y else b) x
    best :: rimTurns n best.2.2.tag ((x :: l).erase best)

namespace State

/-- Serve the frames that wait at the rim. -/
def serveRim (s : State) : State :=
  let relays := rimTurns s.fabric.relayWait.length s.fabric.rimTag s.fabric.relayWait
  relays.foldl (fun s x => s.relayFrame x.1 x.2.1 x.2.2) (s.modFabric fun b => { b with relayWait := [] })

/-- Send a message of an ended launch over the first of its paths that has a pair with credit, or later (R351).
(DEDUCED, log 67). -/
def sendPaths (s : State) (paths : List Path) (f : Frame) : State :=
  match paths.findSome? fun p => (s.bestPair p.hops).map fun x => (x, p.graft.isSome) with
  | some (x, via) => s.sendOwn x.1 x.2 via f
  | none => s.modFabric fun b => { b with directWait := b.directWait ++ [(paths, f)] }

/-- Let waiting frames go, in order, as far as paths and credits reach: the module's own before those it relays.
(DEDUCED, log 64). -/
def pump (s : State) : State :=
  let waiting := s.fabric.backlog
  let directs := s.fabric.directWait
  let s := s.modFabric fun b => { b with backlog := [], directWait := [] }
  let s := directs.foldl (fun s x => s.sendPaths x.1 x.2) s
  (waiting.foldl (fun s x => s.sendPlan x.1 x.2) s).serveRim

/-- The member that a frame's DSTID names. -/
def memberOf (j : Join) (f : Frame) : Option Nat :=
  (List.range (Plan.nmemb j.plan)).find? fun i => dstId (Plan.fpr j.plan i) == f.dstid

/-- The frame is one of the running job's. -/
def isLive (s : State) (f : Frame) : Bool := match s.job with
  | some j => f.tag == j.jobtag
  | none => false

/-- Resend an own frame by the paths to its member: of the running launch, or of the one that ended last (R302). A discovery frame,
which belongs to its pair, and a frame of an earlier launch are not sent again. (DEDUCED, log 64). -/
def resendOwn (s : State) (f : Frame) : State :=
  let count (s : State) : State := s.modFabric fun b => { b with resent := satAdd32 b.resent 1 }
  if f.kind = 0 then s
  else if s.isLive f then match s.fabric.job.bind fun j => memberOf j f with
    | some d => count (s.sendPlan d f)
    | none => s
  else match s.fabric.ended with
    | some (tag, j) => match (if tag = f.tag then memberOf j f else none) with
      | some d => count (s.sendPaths ((s.pathsTo j d).filter fun p => p.weight != 0) f)
      | none => s
    | none => s

/-- Frames that a failed pair hands back, in sequence order (R302, R333): own frames go to their member by other paths, relayed
frames are relayed anew. (DEDUCED, log 64). -/
def handBack (s : State) (l : List SentFrame) : State :=
  l.foldl (fun s x => match x.relayedFrom with
    | some (q, c) => s.relayFrame q c x.frame
    | none => s.resendOwn x.frame) s

/-- Whether every path to a member has weight 0 because its pairs are OUT (R350): every pair of every weighted path is
neither UP nor in HOLD, and there is such a pair, or a graft that a NOROUTE closed. (DEDUCED, log 64). -/
def peerLost (s : State) (j : Join) (d : Nat) : Bool :=
  let hops := (s.pathsTo j d).flatMap fun p => if p.weight = 0 then [] else p.hops
  (!hops.isEmpty || j.deadGrafts.any fun x => x.1 == d) && hops.all fun x =>
    let st := (s.pair x.1 x.2).state
    st != .up && st != .hold

/-- End the launch with cause 0x88 once a peer of J is lost. -/
def checkPeers (s : State) : State :=
  match s.fabric.job with
  | none => s
  | some j => if (j.members.filter (· != j.rank)).any (s.peerLost j) then s.moduleHwFault 0x88 else s

end State

end Sys2Proof.Machine
end

