-- ==== Sys2Proof/Machine/Layout.lean ====
section
/-!
DEFINITION. The 64-bit word of each tile instruction, from its layout line: what TLE_FAULT_INSN records. For a long
form it is the first word.
-/
namespace Sys2Proof.Machine.Layout

def nop (rsv : BitVec 58) : BitVec 64 :=
  0x00#6 ++ rsv
/-- Rests on a choice of the model (DESIGN CHOICE, log 8). -/
def alu (sd : BitVec 5) (sa : BitVec 5) (sb : BitVec 5) (fn : BitVec 5) (rsv : BitVec 38) : BitVec 64 :=
  0x01#6 ++ sd ++ sa ++ sb ++ fn ++ rsv
def alui (sd : BitVec 5) (sa : BitVec 5) (fn : BitVec 5) (rsv : BitVec 11) (imm : BitVec 32) : BitVec 64 :=
  0x02#6 ++ sd ++ sa ++ fn ++ rsv ++ imm
def li (sd : BitVec 5) (pos : BitVec 2) (rsv : BitVec 19) (imm : BitVec 32) : BitVec 64 :=
  0x03#6 ++ sd ++ pos ++ rsv ++ imm
def ld (sd : BitVec 5) (sa : BitVec 5) (size : BitVec 2) (sx : Bool) (sp : Bool) (rsv : BitVec 12) (off : BitVec
    32) : BitVec 64 :=
  0x04#6 ++ sd ++ sa ++ size ++ BitVec.ofBool sx ++ BitVec.ofBool sp ++ rsv ++ off
def st (ss : BitVec 5) (sa : BitVec 5) (size : BitVec 2) (rsv1 : BitVec 1) (sp : Bool) (rsv : BitVec 12) (off :
    BitVec 32) : BitVec 64 :=
  0x05#6 ++ ss ++ sa ++ size ++ rsv1 ++ BitVec.ofBool sp ++ rsv ++ off
def br (sa : BitVec 5) (sb : BitVec 5) (cond : BitVec 3) (rsv : BitVec 13) (off : BitVec 32) : BitVec 64 :=
  0x06#6 ++ sa ++ sb ++ cond ++ rsv ++ off
def jal (sd : BitVec 5) (rsv : BitVec 21) (off : BitVec 32) : BitVec 64 :=
  0x07#6 ++ sd ++ rsv ++ off
def jr (sd : BitVec 5) (sa : BitVec 5) (rsv : BitVec 48) : BitVec 64 :=
  0x08#6 ++ sd ++ sa ++ rsv
def mark (en : Bool) (rsv : BitVec 57) : BitVec 64 :=
  0x09#6 ++ BitVec.ofBool en ++ rsv
def getv (sd : BitVec 5) (sel : BitVec 5) (rsv : BitVec 48) : BitVec 64 :=
  0x0A#6 ++ sd ++ sel ++ rsv
def fence (qmask : BitVec 6) (rsv : BitVec 52) : BitVec 64 :=
  0x0B#6 ++ qmask ++ rsv
def halt (rsv : BitVec 58) : BitVec 64 :=
  0x0C#6 ++ rsv
def tset (t : BitVec 6) (rsv : BitVec 20) (value : BitVec 32) : BitVec 64 :=
  0x0D#6 ++ t ++ rsv ++ value
def xload (dx : BitVec 4) (rs : BitVec 3) (sa : BitVec 5) (klen : BitVec 10) (nlen : BitVec 6) (rsv : BitVec 30) :
    BitVec 64 :=
  0x10#6 ++ dx ++ rs ++ sa ++ klen ++ nlen ++ rsv
def mmul (dw : BitVec 4) (rs : BitVec 3) (dy : BitVec 4) (ws : BitVec 3) (sa : BitVec 5) (sb : BitVec 5) (pass :
    BitVec 2) (dc : BitVec 4) (rc : BitVec 3) (rsv : BitVec 25) : BitVec 64 :=
  0x11#6 ++ dw ++ rs ++ dy ++ ws ++ sa ++ sb ++ pass ++ dc ++ rc ++ rsv
def dcfg (sx : BitVec 5) (rsv : BitVec 53) : BitVec 64 :=
  0x12#6 ++ sx ++ rsv
def dstat (sx : BitVec 5) (dst : Bool) (clr : Bool) (src : Bool) (rsv : BitVec 50) : BitVec 64 :=
  0x13#6 ++ sx ++ BitVec.ofBool dst ++ BitVec.ofBool clr ++ BitVec.ofBool src ++ rsv
def dxmul (dw : BitVec 4) (rs : BitVec 3) (dy : BitVec 4) (ws : BitVec 3) (sa : BitVec 5) (sb : BitVec 5) (pass :
    BitVec 2) (dc : BitVec 4) (rc : BitVec 3) (dmode : Bool) (mpid : BitVec 4) (rsv : BitVec 20) : BitVec 64 :=
  0x14#6 ++ dw ++ rs ++ dy ++ ws ++ sa ++ sb ++ pass ++ dc ++ rc ++ BitVec.ofBool dmode ++ mpid ++ rsv
def dwmul (dd : BitVec 4) (rs : BitVec 3) (dg : BitVec 4) (ws : BitVec 3) (sa : BitVec 5) (sb : BitVec 5) (pass :
    BitVec 2) (dc : BitVec 4) (rc : BitVec 3) (gs : Bool) (rsv : BitVec 24) : BitVec 64 :=
  0x15#6 ++ dd ++ rs ++ dg ++ ws ++ sa ++ sb ++ pass ++ dc ++ rc ++ BitVec.ofBool gs ++ rsv
def xloadt (dx : BitVec 4) (rs : BitVec 3) (sa : BitVec 5) (klen : BitVec 10) (nlen : BitVec 6) (rsv : BitVec 30) :
    BitVec 64 :=
  0x16#6 ++ dx ++ rs ++ sa ++ klen ++ nlen ++ rsv
def lfmt (sd : BitVec 5) (sl : BitVec 5) (rsv : BitVec 48) : BitVec 64 :=
  0x17#6 ++ sd ++ sl ++ rsv
def aload (da : BitVec 4) (rs : BitVec 3) (sa : BitVec 5) (ilen : BitVec 6) (jlen : BitVec 6) (rsv : BitVec 34) :
    BitVec 64 :=
  0x18#6 ++ da ++ rs ++ sa ++ ilen ++ jlen ++ rsv
def amul (dx : BitVec 4) (rs : BitVec 3) (dout : BitVec 4) (ws : BitVec 3) (sa : BitVec 5) (sb : BitVec 5) (pass :
    BitVec 2) (dc : BitVec 4) (rc : BitVec 3) (rsv : BitVec 25) : BitVec 64 :=
  0x19#6 ++ dx ++ rs ++ dout ++ ws ++ sa ++ sb ++ pass ++ dc ++ rc ++ rsv
def acfg (sx : BitVec 5) (rsv : BitVec 53) : BitVec 64 :=
  0x1A#6 ++ sx ++ rsv
def vop (sd : BitVec 5) (sa : BitVec 5) (sb : BitVec 5) (fn : BitVec 6) (ty : BitVec 5) (rnd : BitVec 2) (cnt :
    BitVec 12) (rsv : BitVec 18) : BitVec 64 :=
  0x20#6 ++ sd ++ sa ++ sb ++ fn ++ ty ++ rnd ++ cnt ++ rsv
def vter (sd : BitVec 5) (sa : BitVec 5) (sb : BitVec 5) (sc : BitVec 5) (fn : BitVec 3) (ty : BitVec 5) (rnd :
    BitVec 2) (cnt : BitVec 12) (rsv : BitVec 16) : BitVec 64 :=
  0x21#6 ++ sd ++ sa ++ sb ++ sc ++ fn ++ ty ++ rnd ++ cnt ++ rsv
def vcvt (sd : BitVec 5) (sa : BitVec 5) (sc : BitVec 5) (ts : BitVec 5) (td : BitVec 5) (rnd : BitVec 2) (cnt :
    BitVec 12) (rsv : BitVec 19) : BitVec 64 :=
  0x22#6 ++ sd ++ sa ++ sc ++ ts ++ td ++ rnd ++ cnt ++ rsv
def vred (sd : BitVec 5) (sa : BitVec 5) (sb : BitVec 5) (sl : BitVec 5) (fn : BitVec 3) (ty : BitVec 5) (cnt :
    BitVec 12) (rsv : BitVec 18) : BitVec 64 :=
  0x23#6 ++ sd ++ sa ++ sb ++ sl ++ fn ++ ty ++ cnt ++ rsv
def vmp (sd : BitVec 5) (sa : BitVec 5) (sb : BitVec 5) (sc : BitVec 5) (mpid : BitVec 4) (ti : BitVec 5) (td :
    BitVec 5) (rnd : BitVec 2) (cnt : BitVec 12) (rsv : BitVec 10) : BitVec 64 :=
  0x24#6 ++ sd ++ sa ++ sb ++ sc ++ mpid ++ ti ++ td ++ rnd ++ cnt ++ rsv
def vrand (sd : BitVec 5) (sb : BitVec 5) (mode : BitVec 2) (cnt : BitVec 12) (rsv : BitVec 34) : BitVec 64 :=
  0x25#6 ++ sd ++ sb ++ mode ++ cnt ++ rsv
def seek (sa : BitVec 5) (sub : BitVec 8) (rsv : BitVec 42) : BitVec 64 :=
  0x26#6 ++ 0#3 ++ sa ++ sub ++ rsv
def skey (sa : BitVec 5) (sub : BitVec 8) (rsv : BitVec 42) : BitVec 64 :=
  0x26#6 ++ 1#3 ++ sa ++ sub ++ rsv
def gsave (sa : BitVec 5) (sub : BitVec 8) (rsv : BitVec 42) : BitVec 64 :=
  0x26#6 ++ 2#3 ++ sa ++ sub ++ rsv
def grest (sa : BitVec 5) (sub : BitVec 8) (rsv : BitVec 42) : BitVec 64 :=
  0x26#6 ++ 3#3 ++ sa ++ sub ++ rsv
def genSkip (sa : BitVec 5) (sub : BitVec 8) (rsv : BitVec 42) : BitVec 64 :=
  0x26#6 ++ 4#3 ++ sa ++ sub ++ rsv
def dmake (d : BitVec 4) (sa : BitVec 5) (rsv : BitVec 49) : BitVec 64 :=
  0x28#6 ++ d ++ sa ++ rsv
def dbase (d : BitVec 4) (sa : BitVec 5) (rsv : BitVec 49) : BitVec 64 :=
  0x29#6 ++ d ++ sa ++ rsv
def sarm (ds : BitVec 4) (rs : BitVec 3) (dd : BitVec 4) (sa : BitVec 5) (sb : BitVec 5) (sc : BitVec 5) (te :
    Bool) (t : BitVec 6) (rsv : BitVec 25) : BitVec 64 :=
  0x2A#6 ++ ds ++ rs ++ dd ++ sa ++ sb ++ sc ++ BitVec.ofBool te ++ t ++ rsv
def copy (ds : BitVec 4) (rs : BitVec 3) (dd : BitVec 4) (ws : BitVec 3) (sa : BitVec 5) (sb : BitVec 5) (sc :
    BitVec 5) (tr : Bool) (rsv : BitVec 28) : BitVec 64 :=
  0x2B#6 ++ ds ++ rs ++ dd ++ ws ++ sa ++ sb ++ sc ++ BitVec.ofBool tr ++ rsv
def swaph (d : BitVec 4) (rsv : BitVec 54) : BitVec 64 :=
  0x2C#6 ++ d ++ rsv
def rsel (ds : BitVec 4) (rs : BitVec 3) (sk : BitVec 5) (sa : BitVec 5) (sc : BitVec 5) (rsv : BitVec 36) : BitVec
    64 :=
  0x30#6 ++ ds ++ rs ++ sk ++ sa ++ sc ++ rsv
def rassign (sc : BitVec 5) (ev : Bool) (t : BitVec 6) (rsv : BitVec 46) : BitVec 64 :=
  0x31#6 ++ sc ++ BitVec.ofBool ev ++ t ++ rsv
def gather (ds : BitVec 4) (rs : BitVec 3) (dd : BitVec 4) (ws : BitVec 3) (da : BitVec 4) (ra : BitVec 3) (sc :
    BitVec 5) (sa : BitVec 5) (sb : BitVec 5) (gw : Bool) (rnd : BitVec 2) (rsv : BitVec 16) : BitVec 64 :=
  0x32#6 ++ 0#3 ++ ds ++ rs ++ dd ++ ws ++ da ++ ra ++ sc ++ sa ++ sb ++ BitVec.ofBool gw ++ rnd ++ rsv
def scatter (ds : BitVec 4) (rs : BitVec 3) (dd : BitVec 4) (ws : BitVec 3) (da : BitVec 4) (ra : BitVec 3) (sc :
    BitVec 5) (sa : BitVec 5) (sb : BitVec 5) (gw : Bool) (rnd : BitVec 2) (rsv : BitVec 16) : BitVec 64 :=
  0x32#6 ++ 1#3 ++ ds ++ rs ++ dd ++ ws ++ da ++ ra ++ sc ++ sa ++ sb ++ BitVec.ofBool gw ++ rnd ++ rsv
def combine (ds : BitVec 4) (rs : BitVec 3) (dd : BitVec 4) (ws : BitVec 3) (da : BitVec 4) (ra : BitVec 3) (sc :
    BitVec 5) (sa : BitVec 5) (sb : BitVec 5) (gw : Bool) (rnd : BitVec 2) (rsv : BitVec 16) : BitVec 64 :=
  0x32#6 ++ 2#3 ++ ds ++ rs ++ dd ++ ws ++ da ++ ra ++ sc ++ sa ++ sb ++ BitVec.ofBool gw ++ rnd ++ rsv
def ggrad (ds : BitVec 4) (rs : BitVec 3) (dd : BitVec 4) (ws : BitVec 3) (da : BitVec 4) (ra : BitVec 3) (sc :
    BitVec 5) (sa : BitVec 5) (sb : BitVec 5) (gw : Bool) (rnd : BitVec 2) (rsv : BitVec 16) : BitVec 64 :=
  0x32#6 ++ 3#3 ++ ds ++ rs ++ dd ++ ws ++ da ++ ra ++ sc ++ sa ++ sb ++ BitVec.ofBool gw ++ rnd ++ rsv
def gpool (fn : BitVec 2) (dt : BitVec 4) (dd : BitVec 4) (sb : BitVec 5) (rnd : BitVec 2) (te : Bool) (t : BitVec
    6) (rsv : BitVec 34) : BitVec 64 :=
  0x34#6 ++ fn ++ dt ++ dd ++ sb ++ rnd ++ BitVec.ofBool te ++ t ++ rsv
def gsrow (fn : BitVec 2) (dg : BitVec 4) (dr : BitVec 4) (sb : BitVec 5) (so : BitVec 5) (rnd : BitVec 2) (te :
    Bool) (t : BitVec 6) (rsv : BitVec 29) : BitVec 64 :=
  0x35#6 ++ fn ++ dg ++ dr ++ sb ++ so ++ rnd ++ BitVec.ofBool te ++ t ++ rsv
def updt (grp : BitVec 8) (sa : BitVec 5) (sb : BitVec 5) (src : BitVec 2) (te : Bool) (t : BitVec 6) (rsv : BitVec
    31) : BitVec 64 :=
  0x36#6 ++ grp ++ sa ++ sb ++ src ++ BitVec.ofBool te ++ t ++ rsv
def atom (fn : BitVec 3) (sd : BitVec 5) (sa : BitVec 5) (sb : BitVec 5) (sc : BitVec 5) (rel : Bool) (rsv : BitVec
    34) : BitVec 64 :=
  0x37#6 ++ fn ++ sd ++ sa ++ sb ++ sc ++ BitVec.ofBool rel ++ rsv
def coll (sd : BitVec 5) (sa : BitVec 5) (te : Bool) (t : BitVec 6) (rsv : BitVec 41) : BitVec 64 :=
  0x38#6 ++ sd ++ sa ++ BitVec.ofBool te ++ t ++ rsv
def fsendArm (ws : BitVec 3) (sa : BitVec 5) (sb : BitVec 5) (rsv : BitVec 43) : BitVec 64 :=
  0x39#6 ++ 0#2 ++ ws ++ sa ++ sb ++ rsv
def fsendSkip (ws : BitVec 3) (sa : BitVec 5) (sb : BitVec 5) (rsv : BitVec 43) : BitVec 64 :=
  0x39#6 ++ 1#2 ++ ws ++ sa ++ sb ++ rsv
def signal (kind : BitVec 2) (rel : Bool) (sa : BitVec 5) (t : BitVec 6) (rsv : BitVec 12) (value : BitVec 32) :
    BitVec 64 :=
  0x3C#6 ++ kind ++ BitVec.ofBool rel ++ sa ++ t ++ rsv ++ value
def waitt (t : BitVec 6) (mk : Bool) (sv : Bool) (sa : BitVec 5) (rsv : BitVec 13) (value : BitVec 32) : BitVec 64 :=
  0x3D#6 ++ t ++ BitVec.ofBool mk ++ BitVec.ofBool sv ++ sa ++ rsv ++ value
def claim (sd : BitVec 5) (sa : BitVec 5) (list : BitVec 12) (rsv : BitVec 1) (off : BitVec 32) : BitVec 64 :=
  0x3E#6 ++ 0#3 ++ sd ++ sa ++ list ++ rsv ++ off
def claim2 (sd : BitVec 5) (sa : BitVec 5) (list : BitVec 12) (rsv : BitVec 1) (off : BitVec 32) : BitVec 64 :=
  0x3E#6 ++ 1#3 ++ sd ++ sa ++ list ++ rsv ++ off
def revoke (sd : BitVec 5) (sa : BitVec 5) (list : BitVec 12) (rsv : BitVec 1) (off : BitVec 32) : BitVec 64 :=
  0x3E#6 ++ 2#3 ++ sd ++ sa ++ list ++ rsv ++ off
def lset (sd : BitVec 5) (sa : BitVec 5) (list : BitVec 12) (rsv : BitVec 1) (off : BitVec 32) : BitVec 64 :=
  0x3E#6 ++ 3#3 ++ sd ++ sa ++ list ++ rsv ++ off
def lli (sd : BitVec 5) (rel : Bool) (rsv : BitVec 14) (value : BitVec 32) : BitVec 64 :=
  0x3F#6 ++ 0#6 ++ sd ++ BitVec.ofBool rel ++ rsv ++ value
def ljmp (sd : BitVec 5) (rel : Bool) (rsv : BitVec 14) (value : BitVec 32) : BitVec 64 :=
  0x3F#6 ++ 1#6 ++ sd ++ BitVec.ofBool rel ++ rsv ++ value
def lsignal (sd : BitVec 5) (rel : Bool) (rsv : BitVec 14) (value : BitVec 32) : BitVec 64 :=
  0x3F#6 ++ 2#6 ++ sd ++ BitVec.ofBool rel ++ rsv ++ value

end Sys2Proof.Machine.Layout
end

