-- ==== Sys2Proof/Machine/Operands.lean ====
section
/-!
DEFINITION. The operand forms of the tile instructions: halves of a scalar register, sign-extended immediates,
addresses of LD and ST, windows named through handles, and vector operands (R156, R177, R178, R218).
-/
namespace Sys2Proof.Machine

/-- s[x][31:0] and s[x][63:32]. -/
def lo32 (v : W64) : Nat := v.toNat % 2 ^ 32
def hi32 (v : W64) : Nat := v.toNat / 2 ^ 32

/-- A 32-bit immediate sign-extended to 64 bits. -/
def sext (v : W32) : W64 := v.signExtend 64

/-- PC + 8 * off, with off sign-extended. -/
def pcRel (pc : W64) (off : W32) : W64 := pc + sext off * 8

/-- The physical address that an LD or ST of 2^size bytes reaches, or none for cause 0x03 (R156). -/
def ldStAddr (s : State) (p : TileId) (sp : Bool) (base : W64) (off : W32) (size : Nat) : Option Nat :=
  let a := (base + sext off).toNat
  let n := 2 ^ size
  if a % n ≠ 0 then none
  else if !sp then (if a + n ≤ sramBytes then some (sramBase p.1 + a) else none)
  else if s.inDdr a n then some a
  else match sramWindow a with
    | some (q, off) => if off + n ≤ sramBytes ∧ s.inSet q then some a else none
    | none => none

/-- The handle number h of a tile. -/
def Tile.handle (t : Tile) (h : BitVec 4) : Handle := t.handles[h.toNat]'(by omega)

/-- The window an instruction latches through a handle: half H for a read, 1 − H for a write (R218). -/
def Tile.window (t : Tile) (h : BitVec 4) (write : Bool) (a b len0 len1 : Nat) : Option Window :=
  match (t.handle h).desc with
  | some d => some ⟨d, h, d.pair && ((t.handle h).half != write), a, b, len0, len1⟩
  | none => none

/-- The pair interlock (R218): whether a transfer armed earlier, or an instruction issued earlier that has not started, still uses this
half of this handle the other way. -/
def Tile.interlocked (t : Tile) (w : Window) (write : Bool) : Bool :=
  w.desc.pair && ((t.waiting.any fun x => x.halves.contains (w.handle, w.half, !write)) || t.rslots.toList.any fun r => match r with
    | some x => decide (x.armedAt ≤ t.issueNo) &&
        (if write then x.src.handle == w.handle && x.src.desc.pair && x.src.half == w.half
        else x.dst.handle == w.handle && x.dst.desc.pair && x.dst.half == w.half)
    | none => false)

def Tile.rslot (t : Tile) (k : BitVec 3) : Option Transfer := t.rslots[k.toNat]'(by omega)
def Tile.wslot (t : Tile) (k : BitVec 3) : WSlot := t.wslots[k.toNat]'(by omega)
def Tile.setRslot (t : Tile) (k : BitVec 3) (x : Option Transfer) : Tile :=
  { t with rslots := t.rslots.set k.toNat x (by omega) }
def Tile.setWslot (t : Tile) (k : BitVec 3) (x : WSlot) : Tile :=
  { t with wslots := t.wslots.set k.toNat x (by omega) }

/-- Whether a slot is busy: it carries a transfer, or an instruction that has not started armed it (R214). -/
def Tile.slotBusy (t : Tile) (k : BitVec 3) (write : Bool) : Bool :=
  (if write then t.wslot k != .idle else (t.rslot k).isSome) || t.waiting.any fun x => x.arms.contains (k, write)

/-- Runs of equal neighbours count once. -/
def countRuns {α : Type} [DecidableEq α] : List α → Nat
  | [] => 0
  | [_] => 1
  | a :: b :: l => if a = b then countRuns (b :: l) else countRuns (b :: l) + 1

/-- The 64-byte accesses of a window (R217, R224): whole accesses for each run along dimension 0, of which a folded row has several,
none for pad cells but those that a write stores (R212); scales apart from elements. -/
def Window.accesses (w : Window) (t : EType) (write : Bool) : Nat :=
  let skip (a b : Nat) : Bool := w.desc.isPad a b && !(write && w.desc.padWrite)
  let rows := List.range w.len1
  let run (i : Nat) : Nat := (w.a + i) / w.desc.ext1 0
  let elems := rows.map fun j =>
    countRuns (((List.range w.len0).filter fun i => !skip (w.a + i) (w.b + j)).flatMap fun i =>
      (w.spaceBytes t (w.a + i) (w.b + j)).map fun x => (run i, x / 64))
  let scales := if t.block = 0 then [] else rows.map fun j =>
    countRuns (((List.range w.len0).filter fun i =>
        !skip (w.a + i) (w.b + j) && (w.a + i) % t.block == 0).map fun i =>
      (run i, w.desc.scaleAddr t (w.desc.bitAddr t.width w.half (w.a + i) (w.b + j)) / 64))
  (elems ++ scales).foldl (· + ·) 0

/-- A vector operand (R177): byte offset and signed element stride. -/
structure VecOperand where
  off : Nat
  stride : Int
  deriving DecidableEq, Repr

def vecOperand (v : W64) : VecOperand := ⟨lo32 v, (BitVec.extractLsb' 32 16 v).toInt⟩

/-- The bit offset of element i of a vector operand. -/
def VecOperand.bit (o : VecOperand) (w : Nat) (i : Nat) : Int := (o.off : Int) * 8 + (i : Int) * o.stride * w

/-- The legality of an operand of `cnt` elements of width `w` (R178), the sub-byte conditions of VCVT aside: the
upper bits, the alignment, the range, and a destination's stride. An operand of 12-bit elements may begin at any byte
(DEDUCED, log 100). -/
def vecLegal (v : W64) (w cnt : Nat) (dest : Bool) : Bool :=
  let o := vecOperand v
  let n := max 1 (w / 8)
  let first := o.bit w 0
  let last := o.bit w (cnt - 1)
  v.toNat / 2 ^ 48 == 0 && (if w % 8 = 0 then o.off % n == 0 else o.stride == 1) &&
    decide (0 ≤ min first last) && decide (max first last + w ≤ sramBytes * 8) &&
    !(dest && o.stride == 0 && cnt != 1)

end Sys2Proof.Machine
end

