-- ==== Sys2Proof/Machine/Issue.lean ====
section
/-!
DEFINITION. The issue of a tile instruction (R109, R149, R154, R166, R172): held, a program fault, or its effect.
An instruction that the sequencer holds has no effect; the sender presents it again (log 4).
-/
namespace Sys2Proof.Machine

/-! ### The queues (R149, R150) -/

def SignalTarget.isMemory : SignalTarget → Bool
  | .memory _ => true
  | _ => false

/-- The entries of the SMEM queue that have not completed: claims, memory additions, signals that rel = 1 holds, and instructions that
have not started. -/
def Tile.smemQueue (t : Tile) : Nat :=
  t.claims.length + (t.signals.filter fun g => !g.sent || g.target.isMemory).length + (t.waiting.filter fun w => !w.port).length

/-- The SMEM queue is full: it holds issue (R149). (DESIGN CHOICE, log 12). -/
def Tile.smemFull (t : Tile) : Bool := decide (16 ≤ t.smemQueue)

/-- What an SMEM access waits for, since SMEM accesses complete in issue order (R150): a claim or a memory addition issued before it.
(DEDUCED, log 36). -/
def Tile.smemStalled (t : Tile) : Bool :=
  (t.claims.any fun c => decide (c.claimAt ≤ t.issueNo)) || t.signals.any fun g => g.target.isMemory && decide (g.issueNo ≤ t.issueNo)

/-- The COLLs of a tile that wait in its PORT queue for the join (R467). -/
def State.joinWaits (s : State) (p : TileId) : List WaitColl := s.fabric.waiting.filter fun w => w.p == p

/-- The RASSIGNs of a tile that wait in its PORT queue for room in the assigner (R244). (DEDUCED, log 39). -/
def State.assignWaits (s : State) (p : TileId) : List RtuCall := (s.rtu.calls.drop 16).filter fun c => c.p == p

/-- The entries of a tile's PORT queue that have not started. -/
def State.portQueue (s : State) (p : TileId) : Nat :=
  ((s.tile p).waiting.filter (·.port)).length + (s.joinWaits p).length + (s.assignWaits p).length

/-- The PORT queue is full: it holds issue (R149). (DESIGN CHOICE, log 12). -/
def State.portFull (s : State) (p : TileId) : Bool := decide (16 ≤ s.portQueue p)

/-- An earlier RASSIGN of the tile waits in the PORT queue: an instruction behind it does not start (R150, R244).
(DEDUCED, log 39). -/
def State.assignStalls (s : State) (p : TileId) : Bool :=
  (s.assignWaits p).any fun c => decide (c.issueNo ≤ (s.tile p).issueNo)

/-- An earlier RASSIGN or COLL of the tile waits in the PORT queue (R150, R244, R467). (DEDUCED, log 39). -/
def State.portStalled (s : State) (p : TileId) : Bool :=
  s.assignStalls p || (s.joinWaits p).any fun w => decide (w.issueNo ≤ (s.tile p).issueNo)

/-- One issue check: whether it fails, its cause, and what TLE_DESC_ERR names. A `late` check reads memory: an instruction that waits in
its queue makes it as it starts. -/
structure Check where
  bad : Bool
  cause : Byte
  handle : BitVec 4 := 0
  dim : Nat := 0
  late : Bool := false

/-- Whether the running job's code region holds `n` bytes at an 8-aligned PC (R142, R462). (DESIGN CHOICE, log 9). -/
def State.pcLegal (s : State) (pc : W64) (n : Nat) : Bool :=
  match s.job with
  | some j => pc.toNat % 8 == 0 && decide (j.codeLo ≤ pc.toNat) && decide (pc.toNat + n ≤ j.codeHi)
  | none => false

/-- TLE_DESC_ERR records a descriptor or stream fault (causes 0x40 to 0x4F). -/
def State.noteDescErr (s : State) (p : TileId) (c : Check) : State :=
  if 0x40 ≤ c.cause.toNat ∧ c.cause.toNat < 0x50 then
    s.modTile p fun t =>
      { t with strm := { t.strm with errHandle := c.handle, errDim := BitVec.ofNat 3 c.dim, errCause := c.cause,
                                     errValid := true } }
  else s

/-- The sequencer's own part of an issue: PC, the counts, and the write-class mark (R166). (DESIGN CHOICE, log 9). -/
def Tile.advance (t : Tile) (len : Nat) (wc : Bool) : Tile :=
  { t with pc := t.pc + BitVec.ofNat 64 len, issued := t.issued + 1, issueNo := t.issueNo + 1,
           writeAt := if wc then t.issueNo + 1 else t.writeAt }

def State.advance (s : State) (p : TileId) (len : Nat) (wc : Bool) : State :=
  s.modTile p fun t => t.advance len wc

/-- RTU_ERR records a routing fault (causes 0x50 to 0x57, R251). (DEDUCED, log 53). -/
def State.rtuErr (s : State) (p : TileId) (cause : Byte) : State :=
  if 0x50 ≤ cause.toNat ∧ cause.toNat ≤ 0x57 then
    { s with rtu := { s.rtu with errTile := BitVec.ofNat 11 p.1, errCause := cause, errValid := true } }
  else s

/-- What a check that fails records besides the fault. -/
def State.noteCheck (s : State) (p : TileId) (c : Check) : State := (s.noteDescErr p c).rtuErr p c.cause

/-- A program fault of a check. -/
def State.checkFault (s : State) (p : TileId) (c : Check) (word : W64) : State := (s.noteCheck p c).programFault p c.cause word

/-- What an instruction of the SMEM or PORT queue leaves there if it cannot start as it issues, and whether something else than an
earlier entry of its queue keeps it from starting. -/
structure Entry where
  instr : Instr
  port : Bool
  dest : Option (BitVec 5)
  stalled : Bool
  arms : List (BitVec 3 × Bool)
  halves : List (BitVec 4 × Bool × Bool)

/-- One instruction presented to the sequencer of tile `p`: its first word and its length in bytes, the scalar registers it
names, its checks in the order of their report, whether the sequencer holds it, whether it is write-class (R166), its effect
on the state in which the sequencer has advanced, and its queue entry if it can wait there. (DEDUCED, log 4, 34). -/
structure TileOp where make ::
  p : TileId
  word : W64
  len : Nat
  reads : List (BitVec 5)
  checks : List Check
  held : Bool
  wc : Bool
  effect : State → State
  entry : Option Entry

/-- An instruction that starts as it issues. -/
@[reducible] def TileOp.mk (p : TileId) (word : W64) (len : Nat) (reads : List (BitVec 5)) (checks : List Check) (held wc : Bool)
    (effect : State → State) : TileOp := .make p word len reads checks held wc effect none

/-- The same instruction, which can wait in the SMEM queue, with the register that it writes. -/
def TileOp.inSmem (x : TileOp) (i : Instr) (dest : Option (BitVec 5)) (stalled : Bool) : TileOp :=
  { x with entry := some ⟨i, false, dest, stalled, [], []⟩ }

/-- The same in the PORT queue. -/
def TileOp.inPort (x : TileOp) (i : Instr) (dest : Option (BitVec 5)) (stalled : Bool) : TileOp :=
  { x with entry := some ⟨i, true, dest, stalled, [], []⟩ }

/-- A hardware fault that an instruction met as it ran records its PC and first word (R173). (DESIGN CHOICE, log 102). -/
def State.nameHwFault (before after : State) (x : TileOp) : State :=
  let f := (after.tile x.p).fault
  if f.valid && f.hardware && !((before.tile x.p).fault.valid && (before.tile x.p).fault.hardware) then
    after.modTile x.p fun t => { t with fault := { f with pc := (before.tile x.p).pc.truncate 48, insn := x.word } }
  else after

/-- Whether an instruction cannot start as it issues: an earlier entry of its queue has not started, or it is stalled (R150).
(DESIGN CHOICE, log 12). -/
def Tile.mustWait (t : Tile) (x : TileOp) : Bool := match x.entry with
  | some e => e.stalled || t.waiting.any fun w => w.port == e.port
  | none => false

/-- Whether the queue of an instruction that can wait there is full (R149). (DEDUCED, log 4). -/
def State.queueFull (s : State) (x : TileOp) : Bool := match x.entry with
  | some e => if e.port then s.portFull x.p else (s.tile x.p).smemFull
  | none => false

/-- The instruction enters its queue and the sequencer goes on (R149): its scalar operands and handles are those of its issue.
(DESIGN CHOICE, log 12). -/
def State.enqueue (s : State) (x : TileOp) : State := match x.entry with
  | some e =>
    let t := s.tile x.p
    (s.advance x.p x.len x.wc).modTile x.p fun u =>
      { u with waiting := u.waiting ++ [⟨e.instr, e.port, e.dest, e.arms, e.halves, t.regs, t.handles, t.pc, u.issueNo⟩] }
  | none => s

/-- The issue of one instruction: no effect while the tile does not issue or an operand register has a write pending (R149);
cause 0x04 at an illegal PC (R152, R154); the first failing check, those of memory only if it starts now; no effect while held or its
queue is full; into its queue where it cannot start; else the sequencer advances and the effect follows. (DEDUCED, log 4, 34; DESIGN
CHOICE, log 12). -/
def State.run (s : State) (x : TileOp) : Host.Outcome State Fault Refusal :=
  let t := s.tile x.p
  if t.state ≠ .issuing then .next s
  else if !s.pcLegal t.pc 8 then .next (s.programFault x.p 0x04 x.word)
  else if x.reads.any t.isPending then .next s
  else match x.checks.find? fun c => c.bad && !(c.late && t.mustWait x) with
    | some c => .next (s.checkFault x.p c x.word)
    | none =>
      if x.held || s.queueFull x then .next s
      else if t.mustWait x then .next (s.enqueue x)
      else .next (s.nameHwFault (x.effect (s.advance x.p x.len x.wc)) x)

/-- Reserved and selector checks that most instructions share (R154). -/
def chkSel (unassigned : Bool) : Check := { bad := unassigned, cause := 0x01 }
def chkRsv (nonzero : Bool) : Check := { bad := nonzero, cause := 0x02 }
/-- The same for array and backward instructions (R154, R109). -/
def chkArr (nonzero : Bool) : Check := { bad := nonzero, cause := 0x20 }

/-- Update the tile, then go on. -/
def State.thenTile (s : State) (p : TileId) (f : Tile → Tile) : State := s.modTile p f

end Sys2Proof.Machine
end

