-- ==== Sys2Proof/Machine/Generators.lean ====
section
/-!
DEFINITION. The lane generators: Philox-4x32-10, draws and reservations (R193, R194).
-/
namespace Sys2Proof.Machine

/-- One round on (c0, c1, c2, c3) with the round key (R193). -/
def philoxRound (c : Nat × Nat × Nat × Nat) (ka kb : Nat) : Nat × Nat × Nat × Nat :=
  let p := 0xD2511F53 * c.1
  let q := 0xCD9E8D57 * c.2.2.1
  ((q / 2 ^ 32) ^^^ c.2.1 ^^^ ka, q % 2 ^ 32, (p / 2 ^ 32) ^^^ c.2.2.2 ^^^ kb, p % 2 ^ 32)

/-- `n` rounds, the key bumped after each. -/
def philoxRounds : Nat → Nat × Nat × Nat × Nat → Nat → Nat → Nat × Nat × Nat × Nat
  | 0, c, _, _ => c
  | n + 1, c, ka, kb =>
    philoxRounds n (philoxRound c ka kb) ((ka + 0x9E3779B9) % 2 ^ 32) ((kb + 0xBB67AE85) % 2 ^ 32)

/-- The word x0 for a key and a counter (R193). -/
def philox (key : Nat) (c0 c1 c2 c3 : Nat) : Nat :=
  (philoxRounds 10 (c0, c1, c2, c3) (key % 2 ^ 32) (key / 2 ^ 32)).1

/-- The i-th draw from a lane's next counter value on: only c0 moves, modulo 2^32. -/
def Lane.draw (l : Lane) (i : Nat) : Nat :=
  philox l.key.toNat ((l.c0.toNat + i) % 2 ^ 32) l.c1.toNat l.c2.toNat l.c3.toNat

/-- Whether advancing c0 by `n` carries it past 0xFFFF_FFFF. -/
def Lane.wraps (l : Lane) (n : Nat) : Bool := decide (2 ^ 32 ≤ l.c0.toNat + n)

def Lane.skip (l : Lane) (n : Nat) : Lane := { l with c0 := BitVec.ofNat 32 (l.c0.toNat + n) }

def Tile.lane (t : Tile) (l : Nat) : Lane := t.lanes.getD l .reset

/-- Reserve `n l` draws on every lane l, counting wraps (R193, R194). -/
def Tile.reserve (t : Tile) (n : Nat → Nat) : Tile :=
  let wraps := ((List.range 64).filter fun l => (t.lane l).wraps (n l)).length
  { t with lanes := t.lanes.mapIdx fun l x => x.skip (n l),
           vec := { t.vec with genWrap := satAdd32 t.vec.genWrap wraps } }

/-- How many of `cnt` elements lane l processes (R180). -/
def laneShare (cnt l : Nat) : Nat := (cnt + 63 - l) / 64

/-- Draw k of element i when each element takes `per` draws (R180, R194). -/
def Tile.elemDraw (t : Tile) (per i k : Nat) : Nat := (t.lane (i % 64)).draw (i / 64 * per + k)

/-- The uniform value (g >> 8) * 2^-24. -/
def uniform24 (g : Nat) : FVal := .fin false (g / 256) (if g / 256 = 0 then 0 else -24)

end Sys2Proof.Machine
end

