-- ==== Sys2Proof/Machine/Reals.lean ====
section
/-!
DEFINITION. The real functions of R98 and R182, in whole multiples of 2^-512 and exact to well below 2^-300 of the larger of 1 and the
result, and the bound that those rules put on the device's results.
-/
namespace Sys2Proof.Machine

/-! ### Fixed point: the number n stands for n * 2^-512 -/

def fixBits : Nat := 512
def fixOne : Int := 2 ^ fixBits
def fixMul (a b : Int) : Int := a * b / fixOne
def fixDiv (a b : Int) : Int := a * fixOne / b

/-- A finite value in fixed point, toward zero, its magnitude at most `cap`. -/
def toFix (cap : Nat) : FVal → Int
  | .fin n m e =>
    let q := (quantise .rtz 0 m 1 e (-(fixBits : Int))).1
    let q : Int := (min q (cap * 2 ^ fixBits) : Nat)
    if n then -q else q
  | _ => 0

/-- The sum of `term` and of n terms more, each `next` of its index and the one before. -/
def series (next : Nat → Int → Int) : Nat → Nat → Int → Int
  | 0, _, term => term
  | n + 1, k, term => term + series next n (k + 1) (next k term)

/-- z + z³/3 + z⁵/5 + … for |z| at most 1/3. -/
def fixAtanh (z : Int) : Int :=
  let sq := fixMul z z
  let rec go : Nat → Nat → Int → Int
    | 0, _, _ => 0
    | n + 1, k, p => p / (2 * k + 1) + go n (k + 1) (fixMul p sq)
  go 170 0 z

/-- The arctangent of 1/n: 1/n − 1/(3n³) + 1/(5n⁵) − … -/
def fixAtanInv (n : Nat) : Int :=
  let rec go : Nat → Nat → Int → Int
    | 0, _, _ => 0
    | j + 1, k, p => (if k % 2 = 0 then p else -p) / (2 * k + 1) + go j (k + 1) (p / (n * n : Nat))
  go 120 0 (fixOne / n)

def fixLn2 : Int := 2 * fixAtanh (fixOne / 3)
/-- π by Machin's formula. -/
def fixPi : Int := 16 * fixAtanInv 5 - 4 * fixAtanInv 239

/-- The whole square root from above by Newton steps, with fuel. -/
def rootGo : Nat → Nat → Nat → Nat
  | 0, _, x => x
  | k + 1, n, x =>
    let y := (x + n / x) / 2
    if y < x then rootGo k n y else x

/-- The integer square root. -/
def isqrt (n : Nat) : Nat := if n = 0 then 0 else rootGo 1024 n (2 ^ (n.log2 / 2 + 1))

/-- e^x for |x| at most 1,024: 2^k e^r with |r| at most ln 2. -/
def fixExp (x : Int) : Int :=
  let k := x / fixLn2
  let r := x - k * fixLn2
  let y := series (fun j t => fixMul t r / ((j : Int) + 1)) 105 0 fixOne
  if 0 ≤ k then y * 2 ^ k.toNat else y / 2 ^ (-k).toNat

/-- ln of m 2^e, m > 0: the significand is brought to [3/4, 3/2). -/
def fixLn (m : Nat) (e : Int) : Int :=
  let t := (m.log2 : Int)
  let one := if 2 * m < 3 * 2 ^ m.log2 then (m : Int) * fixOne / 2 ^ m.log2 else (m : Int) * fixOne / 2 ^ (m.log2 + 1)
  let k := if 2 * m < 3 * 2 ^ m.log2 then t + e else t + e + 1
  2 * fixAtanh (fixDiv (one - fixOne) (one + fixOne)) + k * fixLn2

/-- 1/√(m 2^e), m > 0. -/
def fixRsqrt (m : Nat) (e : Int) : Int :=
  let w : Int := 2 * fixBits - e
  (isqrt (if 0 ≤ w then 2 ^ w.toNat / m else 0) : Nat)

/-- 1 / (1 + e^−x), on |x| at most 256. -/
def fixSigmoid (x : Int) : Int :=
  if 0 ≤ x then fixDiv fixOne (fixOne + fixExp (-x))
  else let y := fixExp x; fixDiv y (fixOne + y)

/-- The density e^(−x²/2) / √(2π) of the normal distribution, on |x| at most 16. -/
def fixDensity (x : Int) : Int :=
  let root : Int := (isqrt (2 * fixPi * fixOne).toNat : Nat)
  fixDiv (fixExp (-(fixMul x x) / 2)) root

/-- The normal distribution function on |x| at most 16: 1/2 + density (x + x³/3 + x⁵/15 + …). -/
def fixPhi (x : Int) : Int :=
  let sq := fixMul x x
  fixOne / 2 + fixMul (fixDensity x) (series (fun j t => fixMul t sq / (2 * (j : Int) + 3)) 800 0 x)

/-- The exact value of a built-in curve, codes 0x01 to 0x09 (R98). Outside the ranges below, the curve is within 2^-180 of its limit
or of v. (DESIGN CHOICE, log 5). -/
def curveReal (code : Nat) (v : FVal) : Int :=
  let whole := toFix (2 ^ 1030) v
  let far := decide (whole.natAbs > 16 * 2 ^ fixBits)
  let x := toFix 16 v
  let y := toFix 256 v
  let s := fixSigmoid y
  let th := 2 * fixSigmoid (toFix 256 (v.scale2 1)) - fixOne
  match code with
  | 1 => if far then max whole 0 else fixMul x (fixPhi x)
  | 2 => if far then (if 0 < whole then fixOne else 0) else fixPhi x + fixMul x (fixDensity x)
  | 3 => if whole = y then fixMul y s else max whole 0
  | 4 => fixMul s (fixOne + fixMul y (fixOne - s))
  | 5 => th
  | 6 => fixOne - fixMul th th
  | 7 => s
  | 8 => fixMul s (fixOne - s)
  | _ => fixExp (toFix 1024 v)

/-- The exact value of a transcendental function of R181 at a finite operand where it is finite: EXP, LOG, TANH, SIGMOID, RSQRT.
(DESIGN CHOICE, log 5). -/
def transReal (fn : Nat) (v : FVal) : Int :=
  match fn, v with
  | 17, .fin _ m e => fixLn m e
  | 20, .fin _ m e => fixRsqrt m e
  | 18, _ => curveReal 5 v
  | 19, _ => curveReal 7 v
  | _, _ => curveReal 9 v

/-! ### The bound -/

/-- The farthest that a result may lie from the exact value f: 2^-22 of it, or 2^-148 where it is below 2^-126 (R98, R182). -/
def boundOf (f : Int) : Int := if 2 ^ (fixBits - 126) ≤ f.natAbs then (f.natAbs / 2 ^ 22 : Nat) else 2 ^ (fixBits - 148)

/-- The value of the format next to the fixed-point number x from above (`up`) or from below. -/
def besideFix (f : FFmt) (up : Bool) (x : Int) : FVal :=
  if x = 0 then FVal.zero
  else
    let u := f.spacing (ilogRat x.natAbs 1 - fixBits)
    let q := quantise .rtz 0 x.natAbs 1 (-(fixBits : Int)) u
    let exact := FVal.eq (.fin false q.1 u) (.fin false x.natAbs (-(fixBits : Int)))
    .fin (decide (x < 0)) (if exact || (up == decide (x < 0)) then q.1 else q.1 + 1) u

/-- The result of a function whose exact value is `real`: a value of the format within the bound, which one is free.
(DESIGN CHOICE, log 5). -/
def boundedResult (f : FFmt) (real : Int) (free : FVal) : FVal :=
  let lo := besideFix f true (real - boundOf real)
  let hi := besideFix f false (real + boundOf real)
  let y := f.round .rne free
  if FVal.le lo y && FVal.le y hi then y else if FVal.lt y lo then lo else hi

end Sys2Proof.Machine
end

