-- ==== Sys2Proof/Machine/VecArith.lean ====
section
/-!
DEFINITION. The element functions of the vector engine and of micro-programs: exact results, special values, and
integer results (R181 to R185).
-/
namespace Sys2Proof.Machine

/-- An exact real result before its one rounding: a dyadic value, or the quotient (num / den) * 2^e. -/
inductive Exact where
  | val (v : FVal)
  | quot (neg : Bool) (num den : Nat) (e : Int)
  deriving DecidableEq, Repr

/-- A result with what R184 counts. -/
structure FnResult where
  res : Exact
  invalid : Bool
  divzero : Bool
  deriving DecidableEq, Repr

/-- Round an exact result once into a type (R71 to R73). -/
def Exact.conv (x : Exact) (k : EKind) (r : Rnd) (g : Nat) : Conv :=
  match x with
  | .val v => k.conv r g v
  | .quot n num den e => k.convFinite r g n num den e

/-- Division by IEEE 754-2019 (R182). -/
def fDiv (a b : FVal) : Exact :=
  match a, b with
  | .nan, _ => .val .nan
  | _, .nan => .val .nan
  | .inf _, .inf _ => .val .nan
  | .inf n, .fin k _ _ => .val (.inf (n != k))
  | .fin n _ _, .inf k => .val (.fin (n != k) 0 0)
  | .fin n m e, .fin k l f =>
    if l = 0 then .val (if m = 0 then .nan else .inf (n != k))
    else if m = 0 then .val (.fin (n != k) 0 0)
    else .quot (n != k) m l (e - f)


/-- √a as a dyadic value with a sticky bit 100 and more bits below its leading bit, so that any rounding to a type of
at most 53 bits, SR included, is the rounding of √a (R182). -/
def fSqrt (a : FVal) : FVal :=
  match a with
  | .nan => .nan
  | .inf n => if n then .nan else .inf false
  | .fin n m e =>
    if m = 0 then .fin n 0 0
    else if n then .nan
    else
      let e2 : Int := if e % 2 = 0 then e else e - 1
      let m2 := if e % 2 = 0 then m else 2 * m
      let x := m2 <<< 240
      let r := isqrt x
      .fin false (2 * r + (if r * r = x then 0 else 1)) (e2 / 2 - 121)

/-- −0 below +0, values in order; neither operand NaN (R182). -/
def totalLt (a b : FVal) : Bool :=
  if FVal.eq a b then a.signBit && !b.signBit else FVal.lt a b

def fMin (a b : FVal) : FVal := if a.isNaN || b.isNaN then .nan else if totalLt b a then b else a
def fMax (a b : FVal) : FVal := if a.isNaN || b.isNaN then .nan else if totalLt a b then b else a
def fMinNum (a b : FVal) : FVal := if a.isNaN then b else if b.isNaN then a else fMin a b
def fMaxNum (a b : FVal) : FVal := if a.isNaN then b else if b.isNaN then a else fMax a b

def fBool (b : Bool) : FVal := if b then FVal.one else FVal.zero

/-- Whether exp of a finite value exceeds the largest finite binary64 value (R98): the values above
709.78271289338397, the largest binary64 value whose exponential is still finite. -/
def expOverflows (v : FVal) : Bool := FVal.lt (.fin false 0x162E42FEFA39EF (-43)) v

/-- The special values of a transcendental function, where it has one: R182 and the limits at infinities.
(DESIGN CHOICE, log 5). -/
def transSpecial (fn : Nat) (a : FVal) : Option FVal :=
  match fn, a with
  | _, .nan => some .nan
  | 16, .inf n => some (if n then FVal.zero else .inf false)
  | 17, .inf n => some (if n then .nan else .inf false)
  | 18, .inf n => some (.fin n 1 0)
  | 19, .inf n => some (if n then FVal.zero else FVal.one)
  | 20, .inf n => some (if n then .nan else FVal.zero)
  | 16, .fin _ _ _ => if expOverflows a then some (.inf false) else none
  | 17, .fin n m _ => if m = 0 then some (.inf true) else if n then some .nan else none
  | 20, .fin n m _ => if m = 0 then some (.inf n) else if n then some .nan else none
  | _, _ => none

/-- The grid of a transcendental result before its conversion: binary32 itself, and binary64 for the types that round once more
(R182). -/
def transGrid (k : EKind) : FFmt := if k = .flt Fmt.b32 then Fmt.b32 else Fmt.b64

/-- A transcendental function: a value of the grid within the bound of R182, which one is free (DESIGN CHOICE, log 5). -/
def fTrans (grid : FFmt) (fn : BitVec 6) (a : FVal) : FVal :=
  match transSpecial fn.toNat a with
  | some v => v
  | none => boundedResult grid (transReal fn.toNat a) (ofB64 (Config.transcendental fn (b64Bits a)))

/-- The function codes on floating types; none where unassigned for them (R181). DIVZERO counts divisions alone, not RSQRT or LOG of a
zero (DEDUCED, log 24). -/
def fFn (grid : FFmt) (fn : BitVec 6) (a b : FVal) : Option FnResult :=
  let mk (v : FVal) (nanIn : Bool) : FnResult := ⟨.val v, v.isNaN && !nanIn, false⟩
  let n2 := a.isNaN || b.isNaN
  let n1 := a.isNaN
  match fn.toNat with
  | 0 => some (mk (FVal.add a b) n2)
  | 1 => some (mk (FVal.sub a b) n2)
  | 2 => some (mk (FVal.mul a b) n2)
  | 3 =>
    let q := fDiv a b
    let bad : Bool := match q with
      | .val v => v.isNaN && !n2
      | _ => false
    some ⟨q, bad, a.isFinite && !a.isZero && b.isZero⟩
  | 4 => some (mk (fMin a b) n2)
  | 5 => some (mk (fMax a b) n2)
  | 6 => some (mk (fMinNum a b) n2)
  | 7 => some (mk (fMaxNum a b) n2)
  | 8 => some (mk a.abs n1)
  | 9 => some (mk a.neg n1)
  | 10 => some (mk (fSqrt a) n1)
  | 11 => some (mk (fBool (FVal.eq a b)) n2)
  | 12 => some (mk (fBool (FVal.lt a b)) n2)
  | 13 => some (mk (fBool (FVal.le a b)) n2)
  | 16 | 17 | 18 | 19 | 20 => some (mk (fTrans grid fn a) n1)
  | _ => none

/-- An integer result: its value before saturation, and whether it divides a non-zero value by zero. -/
structure IntResult where
  v : Int
  divzero : Bool
  deriving DecidableEq, Repr

/-- Shifts and bitwise operations on codes of width w (R181). SHRA on UINT8 shifts zeros in (DEDUCED, log 100). -/
def intBits (fn w a b : Nat) (signed : Bool) : Option Nat :=
  let sh := b % w
  match fn with
  | 24 => some (a &&& b)
  | 25 => some (a ||| b)
  | 26 => some (a ^^^ b)
  | 27 => some ((a <<< sh) % 2 ^ w)
  | 28 => some (a >>> sh)
  | 29 =>
    if signed && decide (2 ^ (w - 1) ≤ a) then some ((a >>> sh) + (2 ^ sh - 1) * 2 ^ (w - sh)) else some (a >>> sh)
  | _ => none

/-- The integer functions (R181, R183); `lo` and `hi` are the range of the type. (DEDUCED, log 24). -/
def intFn (fn : Nat) (a b lo hi : Int) : Option IntResult :=
  match fn with
  | 0 => some ⟨a + b, false⟩
  | 1 => some ⟨a - b, false⟩
  | 2 => some ⟨a * b, false⟩
  | 3 =>
    if b = 0 then some ⟨if 0 < a then hi else if a < 0 then lo else 0, a != 0⟩
    else some ⟨Int.tdiv a b, false⟩
  | 4 => some ⟨min a b, false⟩
  | 5 => some ⟨max a b, false⟩
  | 8 => some ⟨(a.natAbs : Int), false⟩
  | 9 => some ⟨-a, false⟩
  | 11 => some ⟨if a = b then 1 else 0, false⟩
  | 12 => some ⟨if a < b then 1 else 0, false⟩
  | 13 => some ⟨if a ≤ b then 1 else 0, false⟩
  | _ => none

/-- What one element of a vector instruction gives: its code and what R184 counts. -/
structure ElemOut where
  code : Nat
  invalid : Bool
  divzero : Bool
  sat : Bool
  nanNum : Bool
  nonfin : Bool
  deriving DecidableEq, Repr

/-- A floating result as an element of type k. -/
def ElemOut.ofFn (k : EKind) (r : Rnd) (g : Nat) (x : FnResult) : ElemOut :=
  let c := x.res.conv k r g
  ⟨c.code, x.invalid, x.divzero, c.sat, c.nanNum, (k.decode c.code).nonFinite⟩

/-- An integer result as an element: saturated to the range (R183). -/
def ElemOut.ofInt (k : EKind) (w : Nat) (x : IntResult) : ElemOut :=
  let v := if x.v < k.lo then k.lo else if k.hi < x.v then k.hi else x.v
  ⟨(v % (2 ^ w : Int)).toNat, false, x.divzero, v != x.v, false, false⟩

/-- The value of an integer code. -/
def intValue (signed : Bool) (w c : Nat) : Int :=
  if signed && decide (2 ^ (w - 1) ≤ c) then (c : Int) - 2 ^ w else c

/-- VOP on element codes of an unblocked type: none where the function is not one of the type's (R181). -/
def vopElem (t : EType) (fn : BitVec 6) (r : Rnd) (g a b : Nat) : Option ElemOut :=
  match t.kind with
  | .flt f => (fFn (transGrid t.kind) fn (f.decode a) (f.decode b)).map (.ofFn t.kind r g)
  | .int signed w =>
    match intBits fn.toNat w a b signed with
    | some c => some ⟨c, false, false, false, false, false⟩
    | none => (intFn fn.toNat (intValue signed w a) (intValue signed w b) t.kind.lo t.kind.hi).map (.ofInt t.kind w)
  | .mxint8 => none

end Sys2Proof.Machine
end

