-- ==== Sys2Proof/Machine/MicroProg.lean ====
section
/-!
DEFINITION. Micro-programs: the image, its launch check and the run on one element (R189 to R192, R464).
-/
namespace Sys2Proof.Machine

/-- One operation word (R190). -/
structure MpOp where
  fn : Nat
  d : Nat
  a : Nat
  b : Nat
  c : Nat
  reserved : Nat
  deriving DecidableEq, Repr

def mpOp (w : Nat) : MpOp := ⟨w % 64, w / 64 % 16, w / 1024 % 16, w / 16384 % 16, w / 262144 % 16, w / 2 ^ 22⟩

/-- A micro-program record. -/
structure MpRecord where
  nin : Nat
  oute : Nat
  k : List FVal
  ops : List MpOp
  deriving DecidableEq, Repr

def mpBase (n : Nat) : Nat := 0x10 + 320 * n

/-- Whether micro-program n is defined in an image. -/
def mpDefined (img : Image) (n : Nat) : Bool := (Image.field img 4 2).testBit n

/-- The record of micro-program n. -/
def mpRecord (img : Image) (n : Nat) : MpRecord :=
  let r := (img.drop (mpBase n)).take 320
  { nin := Image.field r 1 1, oute := Image.field r 2 1,
    k := (List.range 8).map fun i => Fmt.b32.decode (Image.field r (0x10 + 4 * i) 4),
    ops := (List.range (Image.field r 0 1)).map fun j => mpOp (Image.field r (0x40 + 4 * j) 4) }

/-- How many operands a function uses; none for an unassigned code (R190). -/
def mpArity (fn : Nat) : Option Nat :=
  if fn = 43 then some 0
  else if fn = 8 ∨ fn = 9 ∨ fn = 10 ∨ (16 ≤ fn ∧ fn ≤ 20) ∨ fn = 44 then some 1
  else if fn ≤ 13 then some 2
  else if 40 ≤ fn ∧ fn ≤ 42 then some 3
  else none

def mpOpValid (o : MpOp) : Bool :=
  o.reserved == 0 && decide (o.d < 8) &&
    match mpArity o.fn with
    | none => false
    | some n => (decide (1 ≤ n) || o.a == 0) && (decide (2 ≤ n) || o.b == 0) && (decide (3 ≤ n) || o.c == 0)

/-- A defined record against the layout of R189, R190. -/
def mpValid (img : Image) (n : Nat) : Bool :=
  let r := (img.drop (mpBase n)).take 320
  let nops := Image.field r 0 1
  decide (1 ≤ nops) && decide (nops ≤ 64) && decide (1 ≤ Image.field r 1 1) && decide (Image.field r 1 1 ≤ 3) &&
    decide (Image.field r 2 1 ≤ 7) && Image.field r 3 13 == 0 && Image.field r 0x30 16 == 0 &&
    (List.range 64).all fun j =>
      let w := Image.field r (0x40 + 4 * j) 4
      if j < nops then mpOpValid (mpOp w) else w == 0

/-- The launch check of a micro-program image (R190). -/
def mpImageValid (img : Image) : Bool :=
  Image.field img 0 4 == 0x3150504D && Image.field img 6 2 == 0 &&
    Image.field img 0x1410 8 == (crc64 (img.take 0x1410)).toNat &&
    (List.range 16).all fun n => !mpDefined img n || mpValid img n

/-- How many draws a micro-program takes: one for each RAND. -/
def MpRecord.draws (r : MpRecord) : Nat := (r.ops.filter fun o => o.fn == 43).length

/-- The state of a run: temporaries, draws left, and the counts of R464. -/
structure MpState where
  e : List FVal
  draws : List Nat
  invalid : Nat
  divzero : Nat
  deriving DecidableEq, Repr

/-- One operation: rounded once, RNE, to binary32 (R190). -/
def mpStep (r : MpRecord) (s : MpState) (o : MpOp) : MpState :=
  let get (c : Nat) : FVal := if c < 8 then s.e.getD c FVal.zero else r.k.getD (c - 8) FVal.zero
  let a := get o.a
  let b := get o.b
  let c := get o.c
  let put (v : FVal) (inv dz : Bool) (draws : List Nat) : MpState :=
    ⟨s.e.set o.d v, draws, s.invalid + inv.toNat, s.divzero + dz.toNat⟩
  if o.fn = 40 then
    let v := rne32 (FVal.add (FVal.mul a b) c)
    put v (v.isNaN && !(a.isNaN || b.isNaN || c.isNaN)) false s.draws
  else if o.fn = 41 then put (if c.isZero then b else a) false false s.draws
  else if o.fn = 42 then put (fMin (fMax a b) c) false false s.draws
  else if o.fn = 43 then put (uniform24 (s.draws.headD 0)) false false (s.draws.drop 1)
  else if o.fn = 44 then put a false false s.draws
  else match fFn Fmt.b32 (BitVec.ofNat 6 o.fn) a b with
    | some x =>
      let k := (x.res.conv (.flt Fmt.b32) .rne 0).code
      put (Fmt.b32.decode k) x.invalid x.divzero s.draws
    | none => s

/-- Run a micro-program: inputs in e0 and on, the other temporaries +0 (R191). -/
def mpRun (r : MpRecord) (inputs : List FVal) (draws : List Nat) : MpState :=
  let e := (List.range 8).map fun i => inputs.getD i FVal.zero
  r.ops.foldl (mpStep r) ⟨e, draws, 0, 0⟩

end Sys2Proof.Machine
end

