-- ==== Sys2Proof/Machine/Update.lean ====
section
/-!
DEFINITION. The update engines: the configuration, one unit's update, requests, the stash and the restore after a veto
(R270 to R280, R469).
-/
namespace Sys2Proof.Machine

/-! ### The configuration (R270, R271) -/

namespace Upd

def ngrp (u : Image) : Nat := Image.field u 4 2
def stash (u : Image) : Nat := Image.field u 8 8
def stashLen (u : Image) : Nat := Image.field u 0x10 8
def f (u : Image) (g off n : Nat) : Nat := Image.field u (0x40 + 128 * g + off) n
def opt (u : Image) (g : Nat) : Nat := f u g 0 1
def flags (u : Image) (g : Nat) : Nat := f u g 1 1
def comp (u : Image) (g : Nat) : Bool := (flags u g).testBit 0
def mbf16 (u : Image) (g : Nat) : Bool := (flags u g).testBit 1
def rows (u : Image) (g : Nat) : Bool := (flags u g).testBit 2
def nesterov (u : Image) (g : Nat) : Bool := (flags u g).testBit 3
def wtype (u : Image) (g : Nat) : BitVec 5 := BitVec.ofNat 5 (f u g 2 1)
def wrnd (u : Image) (g : Nat) : BitVec 2 := BitVec.ofNat 2 (f u g 2 1 / 32)
def mpid (u : Image) (g : Nat) : Nat := f u g 3 1
def rowlen (u : Image) (g : Nat) : Nat := f u g 4 2
def nblk (u : Image) (g : Nat) : Nat := f u g 8 4
def master (u : Image) (g : Nat) : Nat := f u g 0x10 8
def mlo (u : Image) (g : Nat) : Nat := f u g 0x18 8
def m1 (u : Image) (g : Nat) : Nat := f u g 0x20 8
def m2 (u : Image) (g : Nat) : Nat := f u g 0x28 8
def grad (u : Image) (g : Nat) : Nat := f u g 0x30 8
def stamps (u : Image) (g : Nat) : Nat := f u g 0x38 8
def wout (u : Image) (g : Nat) : Nat := f u g 0x40 8
def wpitch (u : Image) (g : Nat) : Nat := f u g 0x48 4
def lrlen (u : Image) (g : Nat) : Nat := f u g 0x4C 4
def lraddr (u : Image) (g : Nat) : Nat := f u g 0x50 8
def par (u : Image) (g k : Nat) : FVal := Fmt.b32.decode (f u g (0x58 + 4 * k) 4)
def lr (u : Image) (g : Nat) : FVal := par u g 0
def b1 (u : Image) (g : Nat) : FVal := par u g 1
def b2 (u : Image) (g : Nat) : FVal := par u g 2
def eps (u : Image) (g : Nat) : FVal := par u g 3
def wd (u : Image) (g : Nat) : FVal := par u g 4
def gscale (u : Image) (g : Nat) : FVal := par u g 5

/-- The smallest power of two at least n, by doubling (R272). -/
def pow2At (n : Nat) : Nat := ((List.range 17).map (2 ^ ·)).find? (n ≤ ·) |>.getD 65536
def rowp (u : Image) (g : Nat) : Nat := pow2At (rowlen u g)
/-- Elements of a unit, the distance between units and the bytes of one, in a local tensor (R272). -/
def elems (u : Image) (g : Nat) : Nat := if rows u g then rowlen u g else 512
def pitch (u : Image) (g : Nat) : Nat := if rows u g then 4 * rowp u g else 2048
def unitBytes (u : Image) (g : Nat) : Nat := 4 * elems u g
/-- The local tensors the group has: MASTER always, at address 0 too. -/
def locals (u : Image) (g : Nat) : List Nat := master u g :: [mlo u g, m1 u g, m2 u g].filter (· != 0)
/-- Bytes of the working copy's elements, before its scale area (R469). -/
def woutBytes (u : Image) (g w : Nat) : Nat := if rows u g then nblk u g * wpitch u g else nblk u g * 512 * w / 8
/-- Bytes of the working copy's scale area. -/
def scaleArea (u : Image) (g : Nat) (t : EType) : Nat :=
  if t.block = 0 then 0 else woutBytes u g t.width / (t.block * t.width / 8) * t.scaleBytes

/-- The tensors of a group as (start, length), full extents (R273). -/
def tensors (u : Image) (g : Nat) (t : EType) : List (Nat × Nat) :=
  (locals u g).map (fun a => (a, nblk u g * pitch u g)) ++
    (if grad u g = 0 then [] else [(grad u g, nblk u g * 2048)]) ++
    [(stamps u g, 4 * nblk u g), (wout u g, woutBytes u g t.width + scaleArea u g t)]

end Upd

def intervalsMeet (a b : Nat × Nat) : Bool := decide (a.1 < b.1 + b.2) && decide (b.1 < a.1 + a.2)

/-- No two intervals of a list meet. -/
def disjoint : List (Nat × Nat) → Bool
  | [] => true
  | a :: l => !(l.any (intervalsMeet a)) && disjoint l

/-- A floating-point type of R50: FP8, MX with MXINT8, BF16, FP16, binary32 or a user format (R134). -/
def floatType (c : BitVec 5) : Bool := arrayType c && decide (4 ≤ c.toNat)

/-- One group record against R271 and R273, tensor overlap apart. -/
def updGroupValid (ft : FormatTable) (ddrEnd : Nat) (mprog : Option Image) (u : Image) (g : Nat) : Bool :=
  let o := Upd.opt u g
  let t := ft.resolve (Upd.wtype u g)
  let inD (x : Nat × Nat) : Bool := decide (x.1 + x.2 ≤ ddrEnd)
  let al := (Upd.locals u g) ++ (if Upd.grad u g = 0 then [] else [Upd.grad u g])
  let unit01 (v : FVal) : Bool := FVal.le FVal.zero v && FVal.lt v FVal.one
  decide (o ≤ 3) && decide (Upd.flags u g < 16) && (!Upd.nesterov u g || o == 1) && decide (Upd.f u g 2 1 < 96) &&
    (if o = 3 then decide (Upd.mpid u g < 16) else Upd.mpid u g == 0) &&
    (if Upd.rows u g then decide (1 ≤ Upd.rowlen u g) && decide (Upd.rowlen u g ≤ 512) else Upd.rowlen u g == 0) &&
    Upd.f u g 6 2 == 0 && decide (1 ≤ Upd.nblk u g) && Upd.f u g 0x0C 4 == 0 && Upd.f u g 0x70 16 == 0 &&
    (Upd.comp u g == (Upd.mlo u g != 0)) && (o == 3 || Upd.m1 u g != 0) &&
    (!(o == 3 && Upd.m1 u g == 0) || !Upd.mbf16 u g) &&
    ((o == 0 && !Upd.mbf16 u g) == (Upd.m2 u g != 0)) &&
    (!Upd.rows u g || Upd.grad u g == 0) && Upd.stamps u g % 4 == 0 &&
    ((Upd.lraddr u g == 0) == (Upd.lrlen u g == 0)) &&
    (al.all fun a => a % 2048 == 0 && a % 131072 == Upd.master u g % 131072) &&
    (match t with
      | none => false
      | some t =>
        floatType (Upd.wtype u g) && ((Upd.tensors u g t).all inD) &&
          (if Upd.rows u g then
            Upd.wpitch u g % 64 == 0 && decide ((Upd.rowlen u g * t.width + 7) / 8 ≤ Upd.wpitch u g) &&
              (t.block == 0 || (Upd.wpitch u g % (t.block * t.width / 8) == 0 && Upd.rowlen u g % t.block == 0))
          else Upd.wpitch u g == 0)) &&
    (o != 3 || (!Upd.comp u g && match mprog with
      | some img => mpDefined img (Upd.mpid u g) && (mpRecord img (Upd.mpid u g)).draws == 0
      | none => false)) &&
    ((List.range 6).all fun k => (Upd.par u g k).isFinite) && unit01 (Upd.b1 u g) && unit01 (Upd.b2 u g) &&
    FVal.le FVal.zero (Upd.lr u g) && FVal.le FVal.zero (Upd.eps u g) && FVal.le FVal.zero (Upd.wd u g) &&
    inD (Upd.lraddr u g, 4 * Upd.lrlen u g)

/-- The image without its learning-rate schedules (R273). -/
def updImageValid (ft : FormatTable) (ddrEnd : Nat) (mprog : Option Image) (u : Image) : Bool :=
  let n := Upd.ngrp u
  let gs := List.range n
  let ts := gs.flatMap fun g => match ft.resolve (Upd.wtype u g) with
    | some t => Upd.tensors u g t
    | none => []
  let st : List (Nat × Nat) := if Upd.stashLen u = 0 then [] else [(Upd.stash u, Upd.stashLen u)]
  let lrs := gs.filterMap fun g => if Upd.lraddr u g = 0 then none else some (Upd.lraddr u g, 4 * Upd.lrlen u g)
  Image.field u 0 4 == 0x31445055 && decide (1 ≤ n) && decide (n ≤ 256) && u.length == 0x48 + 128 * n &&
    Image.field u 6 2 == 0 && Image.field u 0x18 40 == 0 && Upd.stash u % 131072 == 0 &&
    Upd.stashLen u % 131072 == 0 && ((Upd.stash u == 0) || (Upd.stashLen u != 0)) &&
    decide (Upd.stash u + Upd.stashLen u ≤ ddrEnd) &&
    Image.field u (0x40 + 128 * n) 8 == (crc64 (u.take (0x40 + 128 * n))).toNat &&
    (gs.all fun g => updGroupValid ft ddrEnd mprog u g) && disjoint (ts ++ st) &&
    lrs.all fun x => !((ts ++ st).any (intervalsMeet x))

/-- Every LRADDR entry is finite and non-negative (R273). -/
def State.schedulesValid (s : State) (u : Image) : Bool :=
  (List.range (Upd.ngrp u)).all fun g => (List.range (Upd.lrlen u g)).all fun k =>
    let v := Fmt.b32.decode (s.rdNat (Upd.lraddr u g + 4 * k) 4)
    v.isFinite && FVal.le FVal.zero v

/-- The image at an address: its NGRP tells its length. -/
def State.updateAt (s : State) (a : Nat) : Image := s.rdBytes a (0x48 + 128 * s.rdNat (a + 4) 2)

/-! ### Arithmetic (R274, R276) -/

/-- The internal format of the powers: a 106-bit significand with its leading bit, of unbounded range in effect. -/
def powFmt : FFmt := ⟨true, 20, 105, 2 ^ 19 - 1, 1, 1, false, true⟩

/-- x^n by repeated squaring over the bits of n, least significant first; every product and square rounds to the internal format by
RNE. (DEDUCED, log 26). -/
def powGo : Nat → FVal → FVal → Nat → FVal
  | 0, acc, _, _ => acc
  | k + 1, acc, b, n =>
    if n = 0 then acc
    else
      let acc := if n % 2 = 1 then powFmt.round .rne (FVal.mul acc b) else acc
      powGo k acc (powFmt.round .rne (FVal.mul b b)) (n / 2)

/-- Rests on a choice of the model (DEDUCED, log 26). -/
def updPow (x : FVal) (n : Nat) : FVal := rne64 (powGo 33 FVal.one x n)

def mul64 (a b : FVal) : FVal := rne64 (FVal.mul a b)
def add64 (a b : FVal) : FVal := rne64 (FVal.add a b)
def sub64 (a b : FVal) : FVal := rne64 (FVal.sub a b)
def div64 (a b : FVal) : FVal := ofB64 (BitVec.ofNat 64 ((fDiv a b).conv (.flt Fmt.b64) .rne 0).code)
def sqrt64 (a : FVal) : FVal := rne64 (fSqrt a)

/-- The master and the moments of one element. -/
structure OptElem where
  w : FVal
  m1 : FVal
  m2 : FVal
  deriving DecidableEq, Repr

/-- What the update of one unit uses besides its elements. -/
structure OptArgs where
  opt : Nat
  nesterov : Bool
  b1 : FVal
  b2 : FVal
  eps : FVal
  eta : FVal
  wd : FVal
  t : Nat
  delta : Nat
  mp : Option MpRecord

/-- The catch-up of R274, R276 over Δ skipped steps. -/
def catchUp (a : OptArgs) (x : OptElem) : OptElem :=
  if a.delta = 0 then x
  else
    let phi := updPow (FVal.sub FVal.one (FVal.mul a.eta a.wd)) a.delta
    let w := mul64 x.w phi
    match a.opt with
    | 0 => ⟨w, mul64 x.m1 (updPow a.b1 a.delta), mul64 x.m2 (updPow a.b2 a.delta)⟩
    | 1 => ⟨w, mul64 x.m1 (updPow a.b1 a.delta), x.m2⟩
    | _ => ⟨w, mul64 x.m1 (updPow a.b2 a.delta), x.m2⟩

/-- sign(c) with sign(0) = 0; NaN stays NaN. -/
def signOf (c : FVal) : FVal := if c.isNaN then .nan else if c.isZero then FVal.zero else if c.signBit then .fin true 1 0 else FVal.one

/-- One element's update (R274, R277). (DEDUCED, log 26). -/
def optStep (a : OptArgs) (x : OptElem) (g : FVal) : OptElem :=
  match a.mp with
  | some r =>
    let ofNat (n : Nat) : FVal := rne32 (.fin false n 0)
    let m := mpRun r [rne32 g, rne32 x.w, rne32 x.m1, rne32 x.m2, ofNat a.delta, ofNat a.t, rne32 a.eta] []
    ⟨m.e.getD 1 FVal.zero, m.e.getD 2 FVal.zero, m.e.getD 3 FVal.zero⟩
  | none =>
    let x := catchUp a x
    let decayed := mul64 x.w (sub64 FVal.one (mul64 a.eta a.wd))
    let mix (b m v : FVal) : FVal := add64 (mul64 b m) (mul64 (sub64 FVal.one b) v)
    match a.opt with
    | 0 =>
      let m1 := mix a.b1 x.m1 g
      let m2 := mix a.b2 x.m2 (mul64 g g)
      let c1 := sub64 FVal.one (updPow a.b1 a.t)
      let c2 := sub64 FVal.one (updPow a.b2 a.t)
      let den := add64 (sqrt64 (div64 m2 c2)) a.eps
      ⟨sub64 decayed (div64 (mul64 a.eta (div64 m1 c1)) den), m1, m2⟩
    | 1 =>
      let m := add64 (mul64 a.b1 x.m1) g
      let d := if a.nesterov then add64 g (mul64 a.b1 m) else m
      ⟨sub64 decayed (mul64 a.eta d), m, x.m2⟩
    | _ =>
      let c := mix a.b1 x.m1 g
      ⟨sub64 decayed (mul64 a.eta (signOf c)), mix a.b2 x.m1 g, x.m2⟩

/-! ### One unit -/

namespace State

def updImage (s : State) : Image := match s.job with
  | some j => j.update.getD []
  | none => []

/-- Whether the running launch has a step commit (R358). -/
def hasStep (s : State) : Bool := match s.job with
  | some j => j.step.isSome
  | none => false

/-- The step in progress; 1 without a step configuration (R358, R359). -/
def stepT (s : State) : Nat := if s.hasStep then s.steps.t.toNat else 1

def unitAddr (u : Image) (g base i : Nat) : Nat := base + i * Upd.pitch u g

/-- The channel of a unit (R272). -/
def unitChannel (u : Image) (g i : Nat) : Nat := channelOf (unitAddr u g (Upd.master u g) i)

/-- The learning rate in force at step t; the schedule is read where it lies in DDR. (DESIGN CHOICE, log 111). -/
def learnRate (s : State) (u : Image) (g t : Nat) : FVal :=
  if Upd.lraddr u g = 0 then Upd.lr u g
  else Fmt.b32.decode (s.rdNat (Upd.lraddr u g + 4 * min t (Upd.lrlen u g - 1)) 4)

def rdB32 (s : State) (a : Nat) : FVal := Fmt.b32.decode (s.rdNat a 4)

/-- The stored state of element j of a unit (R271, R274). -/
def optElem (s : State) (u : Image) (g i j : Nat) : OptElem :=
  let at0 (base : Nat) : Nat := unitAddr u g base i + 4 * j
  let w := s.rdB32 (at0 (Upd.master u g))
  let w := if Upd.comp u g then FVal.add w (s.rdB32 (at0 (Upd.mlo u g))) else w
  if Upd.mbf16 u g then
    ⟨w, Fmt.bf16.decode (s.rdNat (at0 (Upd.m1 u g)) 2), Fmt.bf16.decode (s.rdNat (at0 (Upd.m1 u g) + 2) 2)⟩
  else
    ⟨w, if Upd.m1 u g = 0 then FVal.zero else s.rdB32 (at0 (Upd.m1 u g)),
      if Upd.m2 u g = 0 then FVal.zero else s.rdB32 (at0 (Upd.m2 u g))⟩

/-- Δ of a unit, and whether its stamp lies ahead of t (R276). -/
def unitDelta (s : State) (u : Image) (g i t : Nat) : Nat × Bool :=
  let stamp := s.rd32 (Upd.stamps u g + 4 * i)
  let tt : W32 := BitVec.ofNat 32 t
  if stamp = 0xFFFFFFFF ∨ stamp = tt then (0, false)
  else if reached stamp tt then (0, true)
  else ((tt - stamp - 1).toNat, false)

def optArgs (s : State) (u : Image) (g i t : Nat) : OptArgs :=
  { opt := Upd.opt u g, nesterov := Upd.nesterov u g, b1 := Upd.b1 u g, b2 := Upd.b2 u g, eps := Upd.eps u g,
    eta := s.learnRate u g t, wd := Upd.wd u g, t := t, delta := (s.unitDelta u g i t).1,
    mp := if Upd.opt u g = 3 then match s.job with
        | some j => match j.mprog with
          | some img => some (mpRecord img (Upd.mpid u g))
          | none => none
        | none => none
      else none }

end State

/-- The codes that an element's new state is stored as: master, low half, moments (R275, R277). -/
structure OptCodes where
  master : Nat
  mlo : Nat
  m1 : Nat
  m2 : Nat
  deriving DecidableEq, Repr

/-- Round and store forms of one element (R275): the value counted non-finite goes with each stored code. -/
def optCodes (u : Image) (g : Nat) (x : OptElem) : OptCodes :=
  let m := (b32Bits x.w).toNat
  let mom (v : FVal) : Nat :=
    if Upd.mbf16 u g then (Fmt.bf16.conv .rne 0 v).code else (b32Bits v).toNat
  let single := Upd.opt u g = 1 ∨ Upd.opt u g = 2
  ⟨m, (b32Bits (FVal.sub x.w (Fmt.b32.decode m))).toNat, mom x.m1, if single then 0 else mom x.m2⟩

/-- How many of an element's master and moments are non-finite (R280). (DEDUCED, log 54). -/
def optNonfin (u : Image) (g : Nat) (c : OptCodes) : Nat :=
  let mom (k : Nat) : FVal := if Upd.mbf16 u g then Fmt.bf16.decode k else Fmt.b32.decode k
  let n (v : FVal) : Nat := if v.nonFinite then 1 else 0
  n (Fmt.b32.decode c.master) + (if Upd.m1 u g = 0 then 0 else n (mom c.m1)) +
    (if Upd.m2 u g = 0 ∧ !(Upd.mbf16 u g) then 0 else n (mom c.m2))

namespace State

/-- The value WOUT is converted from: the stored master (R275). -/
def masterValue (u : Image) (g : Nat) (c : OptCodes) : FVal :=
  let m := Fmt.b32.decode c.master
  if Upd.comp u g then FVal.add m (Fmt.b32.decode c.mlo) else m

/-- The working copy of a unit's master values (R272, R275, R469). -/
def woutRun (s : State) (u : Image) (g : Nat) (vals : List FVal) : Option (EType × ConvRun) :=
  match s.etype (Upd.wtype u g) with
  | some t => some (t, convRun t (Rnd.ofCode (Upd.wrnd u g)) (vals.map fun v => (v, 0)))
  | none => none

/-- A run of bytes [lo, hi) was written in requests of whole lines: its lines are no longer poisoned (R258). -/
def settleRange (s : State) (lo hi : Nat) : State :=
  if s.poisoned = [] then s else s.clearPoison fun a => decide (lo ≤ a ∧ a < hi)

/-- Write a unit's working copy. -/
def writeWout (s : State) (u : Image) (g i : Nat) (t : EType) (r : ConvRun) : State :=
  let bit0 := 8 * Upd.wout u g + (if Upd.rows u g then 8 * (i * Upd.wpitch u g) else 512 * i * t.width)
  let s := r.codes.zipIdx.foldl (fun s x => s.wrBits (fun a => a) (bit0 + x.2 * t.width) t.width x.1) s
  let s := s.settleRange ((bit0 + 7) / 8) ((bit0 + r.codes.length * t.width) / 8)
  if t.block = 0 then s
  else
    let bb := t.block * t.width / 8
    let wsc := Upd.wout u g + Upd.woutBytes u g t.width
    let o := bit0 / 8 - Upd.wout u g
    let at0 := wsc + o / bb * t.scaleBytes
    (r.scales.zipIdx.foldl (fun s x => s.wrNat (at0 + x.2 * t.scaleBytes) t.scaleBytes x.1) s).settleRange at0
      (at0 + r.scales.length * t.scaleBytes)

/-- The new codes of every element of a unit, and how many values are non-finite, the working copy's included. -/
def formUnit (s : State) (u : Image) (g i gaddr t : Nat) : List OptCodes × Nat :=
  let args := s.optArgs u g i t
  let cs := (List.range (Upd.elems u g)).map fun j =>
    optCodes u g (optStep args (s.optElem u g i j) (FVal.mul (s.rdB32 (gaddr + 4 * j)) (Upd.gscale u g)))
  let wn := match s.woutRun u g (cs.map (masterValue u g)) with
    | some (ty, r) => (r.codes.zipIdx.filter fun x =>
        (ty.decode (r.scales.getD (if ty.block = 0 then 0 else x.2 / ty.block) 0) x.1).nonFinite).length
    | none => 0
  (cs, (cs.map (optNonfin u g)).foldl (· + ·) 0 + wn)

/-- Store a unit's new state, its working copy and its stamp (R275, R277). -/
def storeUnit (s : State) (u : Image) (g i t : Nat) (cs : List OptCodes) : State :=
  let at0 (base j : Nat) : Nat := unitAddr u g base i + 4 * j
  let s := cs.zipIdx.foldl (fun s x =>
    let s := s.wrNat (at0 (Upd.master u g) x.2) 4 x.1.master
    let s := if Upd.comp u g then s.wrNat (at0 (Upd.mlo u g) x.2) 4 x.1.mlo else s
    let s :=
      if Upd.mbf16 u g then s.wrNat (at0 (Upd.m1 u g) x.2) 4 (x.1.m1 + 65536 * x.1.m2)
      else if Upd.m1 u g = 0 then s
      else s.wrNat (at0 (Upd.m1 u g) x.2) 4 x.1.m1
    if Upd.mbf16 u g || Upd.m2 u g == 0 then s else s.wrNat (at0 (Upd.m2 u g) x.2) 4 x.1.m2) s
  let s := (Upd.locals u g).foldl (fun s b =>
    s.settleRange (unitAddr u g b i) (unitAddr u g b i + Upd.unitBytes u g)) s
  let s := match s.woutRun u g (cs.map (masterValue u g)) with
    | some (ty, r) => s.writeWout u g i ty r
    | none => s
  s.wrNat (Upd.stamps u g + 4 * i) 4 t

/-- Rewrite a unit's working copy from its stored master (R279, R383). -/
def rewriteWout (s : State) (u : Image) (g i : Nat) : State :=
  let vals := (List.range (Upd.elems u g)).map fun j => (s.optElem u g i j).w
  match s.woutRun u g vals with
  | some (ty, r) => s.writeWout u g i ty r
  | none => s

/-- The bytes a unit's update reads. -/
def unitReads (u : Image) (g i gaddr t : Nat) : List Nat :=
  let n := Upd.unitBytes u g
  ((Upd.locals u g).flatMap fun b => (List.range n).map (unitAddr u g b i + ·)) ++
    (List.range n).map (gaddr + ·) ++ (List.range 4).map (Upd.stamps u g + 4 * i + ·) ++
    (if Upd.lraddr u g = 0 then []
      else (List.range 4).map (Upd.lraddr u g + 4 * min t (Upd.lrlen u g - 1) + ·))

/-- The counters of one update at its engine. -/
def countUnit (s : State) (ch : Nat) (delta : Nat × Bool) (nonfin : Nat) : State :=
  s.modPort ch fun q =>
    { q with updUnits := satAdd32 q.updUnits 1, updCatchup := satAdd32 q.updCatchup (if 0 < delta.1 then 1 else 0),
             updStamperr := satAdd32 q.updStamperr (if delta.2 then 1 else 0),
             updNonfin := satAdd32 q.updNonfin nonfin }

/-- Update one unit: form, store and count. A request checked before counts its non-finite values once (R280). -/
def updateUnit (s : State) (x : UpdUnit) : State :=
  let u := s.updImage
  let t := s.stepT
  let r := s.formUnit u x.grp x.unit x.gaddr t
  let s1 := (s.storeUnit u x.grp x.unit t r.1).countUnit (unitChannel u x.grp x.unit) (s.unitDelta u x.grp x.unit t)
    (if x.checked then 0 else r.2)
  let s2 := if r.2 ≠ 0 ∧ !x.checked then s1.raiseNf else s1
  s2.modulePoison (s.poisonedLines (unitReads u x.grp x.unit x.gaddr t))

/-! ### The stash (R279) -/

def stashSize (u : Image) (g : Nat) : Nat := 64 + (Upd.locals u g).length * Upd.unitBytes u g

def stashUsed (s : State) (ch : Nat) : Nat :=
  ((s.steps.stash.filter fun e => e.channel == ch).map (·.size)).foldl (· + ·) 0

def setStashed (s : State) (ch : Nat) : State :=
  s.modPort ch fun q => { q with updStashed := BitVec.ofNat 32 ((s.stashUsed ch + 63) / 64) }

/-- Where byte `off` of engine ch's share of the stash lies: the share is the granules of the stash area in its own channel.
(DESIGN CHOICE, log 104). -/
def stashAddr (u : Image) (ch off : Nat) : Nat :=
  Upd.stash u + 131072 * (off / 2048) + 2048 * (ch ^^^ (ch / 8)) + off % 2048

/-- The addresses of an entry of `size` bytes at `off` in engine ch's share. -/
def stashBytes (u : Image) (ch off size : Nat) : List Nat := (List.range size).map fun i => stashAddr u ch (off + i)

/-- Copy a unit's old bytes and stamp to the stash. What the bytes of its entry there hold is not given: free.
(DESIGN CHOICE, log 104). -/
def stashUnit (s : State) (x : UpdUnit) : State :=
  let u := s.updImage
  let n := Upd.unitBytes u x.grp
  let addrs := ((Upd.locals u x.grp).flatMap fun b => (List.range n).map (unitAddr u x.grp b x.unit + ·)) ++
    (List.range 4).map (Upd.stamps u x.grp + 4 * x.unit + ·)
  let ch := unitChannel u x.grp x.unit
  let used := s.stashUsed ch
  let size := stashSize u x.grp
  let entry := stashBytes u ch used size
  (((s.scramble entry).clearPoison entry.contains).stepsMod fun y =>
    { y with stash := y.stash ++ [⟨ch, x.grp, x.unit, size, addrs.map fun a => (a, s.rd a)⟩] }).setStashed ch

/-- The stashed units, each with its place in its engine's share. -/
def stashPlaced (s : State) : List (StashEntry × Nat) :=
  let l := s.steps.stash
  l.zipIdx.map fun x => (x.1, (((l.take x.2).filter fun e => e.channel == x.1.channel).map (·.size)).foldl (· + ·) 0)

/-- Restore one stashed unit, with its working copy. An entry that reads with an uncorrectable error is a fault, and the unit is then
unpredictable (R258). -/
def unstashOne (s : State) (x : StashEntry × Nat) : State :=
  let u := s.updImage
  let e := x.1
  let bad := s.poisonedLines (stashBytes u e.channel x.2 e.size)
  let s1 := if bad.isEmpty then s.wrList e.old else s.scramble (e.old.map (·.1))
  ((s1.rewriteWout u e.grp e.unit).modPort e.channel fun q =>
    { q with updRestored := satAdd32 q.updRestored 1 }).modulePoison bad

/-- Restore every stashed unit in the reverse order of stashing, and release the stash. (DESIGN CHOICE, log 104). -/
def unstash (s : State) : State :=
  let s1 := s.stashPlaced.reverse.foldl unstashOne s
  let s2 := s1.stepsMod fun y => { y with stash := [] }
  (s.steps.stash.map (·.channel)).foldl setStashed s2

/-- Release the stash at a clear gate. -/
def releaseStash (s : State) : State :=
  let chs := s.steps.stash.map (·.channel)
  chs.foldl setStashed (s.stepsMod fun y => { y with stash := [] })

/-! ### Requests -/

/-- Whether a unit's veto gate is open clear (R279, R358). -/
def gateClear (s : State) (x : UpdUnit) : Bool :=
  !s.hasStep || (x.attempt == s.steps.a && s.steps.phase == .gateClear && !s.steps.digest) ||
    decide (x.attempt.toNat < s.steps.a.toNat)

/-- The attempt that a request made now counts to (R363): the next one after arrival, and a digest commit ends no attempt.
(DEDUCED, log 55). -/
def requestAttempt (s : State) : W32 :=
  if s.steps.phase = .stepping ∨ s.steps.digest then s.steps.a else s.steps.a + 1

/-- An instruction's request has no unit left: its queue entry ends and its tally is added (R278). -/
def finishRequest (s : State) (owner : Option (TileId × Nat)) (te : Option (BitVec 6)) : State :=
  match owner with
  | none => s
  | some (p, n) =>
    if s.steps.units.any fun x => x.owner == owner then s
    else if (s.tile p).portWork.contains n then
      let s := s.modTile p fun t => { t with portWork := t.portWork.filter (· != n) }
      match te with
      | some k => s.addTally p k 1
      | none => s
    else s

/-- Put units in their engines' queues, in order: unit and gradient address. -/
def requestUnits (s : State) (owner : Option (TileId × Nat)) (te : Option (BitVec 6)) (grp : Nat)
    (l : List (Nat × Nat)) : State :=
  let a := s.requestAttempt
  (s.stepsMod fun y => { y with units := y.units ++ l.map fun x => ⟨owner, te, grp, x.1, x.2, a, false⟩ }).finishRequest
    owner te

/-- The units of one engine. -/
def engineUnits (s : State) (i : Nat) : List UpdUnit :=
  s.steps.units.filter fun x => unitChannel s.updImage x.grp x.unit == i

/-- Take one unit out of the queues. -/
def dropUnit (s : State) (x : UpdUnit) : State := s.stepsMod fun y => { y with units := y.units.erase x }

end State

/-- One engine's next unit (R274 to R280, R364): it runs when its gate is open clear, is stashed and written while the
engine's share of the stash has room for it and no earlier unit is held, and otherwise gets its check pass. A unit of the
next attempt waits until that attempt is the current one. -/
def execUnitUpdate (i : PortId) (s : State) : Host.Outcome State Fault Refusal :=
  let l := s.engineUnits i.1
  match l.find? fun x => s.gateClear x || (!x.checked && x.attempt == s.steps.a) with
  | none => .next s
  | some x =>
    let u := s.updImage
    if s.gateClear x then .next (((s.dropUnit x).updateUnit x).finishRequest x.owner x.te)
    else
      let share := Upd.stashLen u / 64
      let heldBefore := (l.takeWhile fun y => y != x).any (·.checked)
      if !heldBefore && decide (s.stashUsed i.1 + State.stashSize u x.grp ≤ share) then
        .next ((((s.stashUnit x).dropUnit x).updateUnit x).finishRequest x.owner x.te)
      else
        let r := s.formUnit u x.grp x.unit x.gaddr s.stepT
        let s1 := s.modPort i.1 fun q => { q with updNonfin := satAdd32 q.updNonfin r.2 }
        let s2 := if r.2 = 0 then s1 else s1.raiseNf
        .next ((s2.stepsMod fun y =>
          { y with units := y.units.map fun z => if z = x then { z with checked := true } else z }).readByModule
            (State.unitReads u x.grp x.unit x.gaddr s.stepT))

/-- The rows of a row list: NROWS, ROWIDX and the indices (R269). -/
def State.rowList (s : State) (a : Nat) : List Nat :=
  let n := s.rdNat a 4
  let idx := s.rdNat (a + 8) 8
  (List.range n).map fun k => s.rdNat (idx + 4 * k) 4

/-- A row list lies in fitted DDR with its index array. -/
def State.rowListOk (s : State) (a : Nat) : Bool :=
  s.inDdr a 16 && s.inDdr (s.rdNat (a + 8) 8) (4 * s.rdNat a 4) && s.rdNat (a + 8) 8 % 4 == 0

def strictlyAscending : List Nat → Bool
  | a :: b :: l => decide (a < b) && strictlyAscending (b :: l)
  | _ => true

/-- UPDT (R278, R281). (DEDUCED, log 55). -/
def opUpdt (p : TileId) (grp : BitVec 8) (sa sb : BitVec 5) (src : BitVec 2) (te : Bool) (t : BitVec 6)
    (rsv : BitVec 31) (s : State) : TileOp :=
  let x := s.tile p
  let a := (x.reg sa).toNat
  let b := (x.reg sb).toNat
  let g := grp.toNat
  let u := s.updImage
  let none' : Bool := match s.job with
    | some j => j.update.isNone
    | none => true
  let late60 := src == 1 && (!s.rowListOk a || (!none' && decide (g < Upd.ngrp u) && s.rdNat a 4 != 0 &&
      !s.inDdr b (4 * Upd.rowp u g * (s.rdNat a 4 - 1) + 4 * Upd.rowlen u g)))
  let dark := src == 1 && (s.poisonIn a 16 || s.poisonIn (s.rdNat (a + 8) 8) (4 * s.rdNat a 4))
  let rows := s.rowList a
  let bad62 := if src = 0 then
      Upd.rows u g || decide (2 ^ 32 ≤ a) || decide (2 ^ 32 ≤ b) || b == 0 || decide (Upd.nblk u g < a + b)
    else !Upd.rows u g
  (TileOp.mk p (Layout.updt grp sa sb src te t rsv) 8 [sa, sb]
    [chkSel (decide (2 ≤ src.toNat)), chkRsv (rsv != 0 || (!te && t != 0)),
      { bad := src == 1 && (a % 16 != 0 || b % 4 != 0), cause := 0x60 }, { bad := late60, cause := 0x60, late := true },
      { bad := none' || decide (Upd.ngrp u ≤ g), cause := 0x61 }, { bad := bad62, cause := 0x62 },
      { bad := src == 1 && !dark && (rows.any (fun r => decide (Upd.nblk u g ≤ r)) || !strictlyAscending rows), cause := 0x62,
        late := true }]
    false true fun s =>
      let list := (List.range 16).map (a + ·) ++ (List.range (4 * rows.length)).map (s.rdNat (a + 8) 8 + ·)
      if dark then s.readByModule list else
      let n := x.issueNo + 1
      let s := s.modTile p fun y => { y with portWork := y.portWork ++ [n] }
      let units := if src = 0 then (List.range b).map fun i => (a + i, Upd.grad u g + 2048 * (a + i))
        else rows.zipIdx.map fun r => (r.1, b + 4 * Upd.rowp u g * r.2)
      s.requestUnits (some (p, n)) (if te then some t else none) g units).inPort (.updt p grp sa sb src te t rsv) none (s.portStalled p)

def execUpdt (p : TileId) (grp : BitVec 8) (sa sb : BitVec 5) (src : BitVec 2) (te : Bool) (t : BitVec 6)
    (rsv : BitVec 31) (s : State) :
    Host.Outcome State Fault Refusal := s.run (opUpdt p grp sa sb src te t rsv s)

end Sys2Proof.Machine
end

