-- ==== Sys2Proof/Machine/CollBase.lean ====
section
/-!
DEFINITION. Collectives: the record, its checks, blocks and rows and their owners, and the frames of a collective
(R333 to R348, R353, R468).
-/
namespace Sys2Proof.Machine

/-! ### The record (R336) -/

namespace Rec

def kind (r : Image) : Nat := Image.field r 0 1
def group (r : Image) : Nat := Image.field r 1 1
def etypeByte (r : Image) : Nat := Image.field r 2 1
def etype (r : Image) : BitVec 5 := BitVec.ofNat 5 (etypeByte r)
def flags (r : Image) : Nat := Image.field r 3 1
def stream (r : Image) : Bool := (flags r).testBit 0
def upd (r : Image) : Bool := (flags r).testBit 1
def ugrp (r : Image) : Nat := Image.field r 4 1
def peer (r : Image) : Nat := Image.field r 5 1
def src (r : Image) : Nat := Image.field r 8 8
def dst (r : Image) : Nat := Image.field r 0x10 8
def len (r : Image) : Nat := Image.field r 0x18 8
def stage (r : Image) : Nat := Image.field r 0x20 8
def stageLen (r : Image) : Nat := Image.field r 0x28 8
def aux (r : Image) : Nat := Image.field r 0x30 8
def aux2 (r : Image) : Nat := Image.field r 0x38 8
/-- SROW: the row length and the table rows. -/
def rowLen (r : Image) : Nat := len r % 65536
def ntab (r : Image) : Nat := len r / 2 ^ 32
def rowp (r : Image) : Nat := Upd.pow2At (rowLen r)
/-- The bytes of n rows, 4 * ROWP apart: nothing reads or writes what follows the last one (R272, R345). -/
def rowsSpan (r : Image) (n : Nat) : Nat := if n = 0 then 0 else 4 * rowp r * (n - 1) + 4 * rowLen r

end Rec

/-! ### Blocks, units, rows and their owners (R338, R340, R345) -/

/-- Elements of a wire block (R128, R338). -/
def wireElems (t : EType) : Nat := if t.block = 0 then 32 else t.block
/-- Bytes of a wire block's elements, and of its slot in the staging area. -/
def wireBytes (t : EType) : Nat := wireElems t * t.width / 8
def slotBytes (n : Nat) : Nat := 64 * ((n + 63) / 64)

/-- Where RSCAT blocks belong: members, blocks and elements of a block. -/
structure Shards where
  n : Nat
  nblks : Nat
  bs : Nat

namespace Shards

def nelem (x : Shards) : Nat := x.nblks * x.bs
def units (x : Shards) : Nat := (x.nelem + 511) / 512
/-- The position that owns a block. -/
def owner (x : Shards) (b : Nat) : Nat := b * x.bs / 512 * x.n / x.units
/-- The first unit of position i: the least u with floor(u * N / NU) at least i. -/
def firstUnit (x : Shards) (i : Nat) : Nat := (i * x.units + x.n - 1) / x.n
def unitsOf (x : Shards) (i : Nat) : Nat := x.firstUnit (i + 1) - x.firstUnit i
def firstBlock (x : Shards) (i : Nat) : Nat := min x.nblks (x.firstUnit i * 512 / x.bs)
def blocksOf (x : Shards) (i : Nat) : List Nat :=
  (List.range (x.firstBlock (i + 1) - x.firstBlock i)).map (x.firstBlock i + ·)
/-- The blocks of one unit. -/
def unitBlocks (x : Shards) (u : Nat) : List Nat :=
  (List.range x.nblks).filter fun b => b * x.bs / 512 == u

end Shards

/-- The position that owns a row, and a position's first row (R345). -/
def rowOwner (n ntab r : Nat) : Nat := r * n / ntab
def firstRow (n ntab i : Nat) : Nat := (i * ntab + n - 1) / n

/-- The window in slots of `sb` bytes (R340, R345). -/
def window (r : Image) (n sb : Nat) : Nat := Rec.stageLen r / (n * sb)

namespace State

/-- The wire type of an RSCAT record, when R134 allows it as WIRE. -/
def wireType (s : State) (r : Image) : Option EType :=
  match s.etype (Rec.etype r) with
  | some t => if floatType (Rec.etype r) && (t.block == 0 || t.block == 16 || t.block == 32) then some t else none
  | none => none

/-- Bytes of a contribution slot of a record: a wire block with its scale, or a row. -/
def slotOf (s : State) (r : Image) : Nat :=
  if Rec.kind r = 4 then slotBytes (4 * Rec.rowLen r)
  else match s.etype (Rec.etype r) with
    | some t => slotBytes (wireBytes t + t.scaleBytes)
    | none => 64

/-- An area lies wholly in fitted DDR or in the SRAM window of a tile of the set (R336). -/
def areaOk (s : State) (x : Nat × Nat) : Bool :=
  s.inDdr x.1 x.2 || match sramWindow x.1 with
    | some (p, off) => decide (off + x.2 ≤ sramBytes) && s.inSet p
    | none => false

/-- The job ranks of a group: the members of J in its MASK, ascending (R327). -/
def groupRanks (j : Join) (g : Nat) : List Nat :=
  (List.range j.members.length).filter fun k => (Plan.mask j.plan g).testBit (j.members.getD k 0)

/-- Member ranks of a record's collective; PUT and GET pair the module with PEER. -/
def recordRanks (j : Join) (r : Image) : List Nat :=
  if Rec.kind r = 6 ∨ Rec.kind r = 7 then [j.ownRank, Rec.peer r] else groupRanks j (Rec.group r)

end State

/-! ### Checks of the record (R353, R468) -/

/-- Cause 0x70: an unassigned KIND, a reserved field, or a field the kind does not use, non-zero. (DEDUCED, log 70). -/
def recBad70 (r : Image) (blocked : Bool) : Bool :=
  let k := Rec.kind r
  let unused (used : Bool) (v : Nat) : Bool := !used && v != 0
  decide (8 ≤ k) || Image.field r 6 2 != 0 || decide (32 ≤ Rec.etypeByte r) || decide (4 ≤ Rec.flags r) ||
    unused (k == 0) (Rec.etypeByte r) || (Rec.stream r && k != 0) || (Rec.upd r && k != 0 && k != 4) ||
    unused (Rec.upd r) (Rec.ugrp r) || unused (k == 3 || k == 6 || k == 7) (Rec.peer r) ||
    unused ((k == 0 && !Rec.stream r) || (1 ≤ k && k ≤ 4) || k == 6) (Rec.src r) ||
    unused (k ≤ 4 || k == 7) (Rec.dst r) || (k == 5 && Rec.len r != 0) ||
    (k == 4 && Rec.len r / 65536 % 65536 != 0) ||
    unused (k == 0 || k == 4) (Rec.stage r) || unused (k == 0 || k == 4) (Rec.stageLen r) ||
    unused ((k == 0 && !Rec.stream r && blocked) || k == 2 || k == 4) (Rec.aux r) || unused (k == 4) (Rec.aux2 r)

/-- The rows that this module owns in an SROW: as many may reach its output (R345). -/
def ownRows (j : Join) (r : Image) : Nat :=
  let ranks := State.recordRanks j r
  let i := (ranks.findIdx? (· == j.ownRank)).getD 0
  firstRow ranks.length (Rec.ntab r) (i + 1) - firstRow ranks.length (Rec.ntab r) i

/-- The areas of a record: start and length (R336, R338, R344, R345); an SROW's output and its index array reach as far as the
rows that the module owns. (DEDUCED, log 70). -/
def State.recAreas (s : State) (j : Join) (r : Image) : List (Nat × Nat) :=
  let n := (State.recordRanks j r).length
  let l := Rec.len r
  match Rec.kind r with
  | 0 => match s.etype (Rec.etype r) with
    | none =>
      -- no type: the areas are at least their first byte, and the staging area is whole
      (if Rec.stream r then [] else [(Rec.src r, 1)]) ++ [(Rec.stage r, Rec.stageLen r)]
    | some t =>
      let x : Shards := ⟨n, l, wireElems t⟩
      let i := ((State.recordRanks j r).findIdx? (· == j.ownRank)).getD 0
      let own := min (512 * x.firstUnit (i + 1)) x.nelem - min (512 * x.firstUnit i) x.nelem
      (if Rec.stream r then [] else (Rec.src r, l * wireBytes t) ::
        (if t.block = 0 then [] else [(Rec.aux r, l * t.scaleBytes)])) ++
        [(Rec.dst r, 4 * own), (Rec.stage r, Rec.stageLen r)]
  | 1 => [(Rec.src r, l), (Rec.dst r, n * l)]
  | 2 => [(Rec.src r, n * l), (Rec.dst r, n * l)] ++ (if Rec.aux r = 0 then [] else [(Rec.aux r, 4 * n)])
  | 3 => [(Rec.src r, l), (Rec.dst r, l)]
  | 4 =>
    let rows := ownRows j r
    [(Rec.src r, Rec.rowsSpan r (s.rdNat (Rec.aux r) 4)), (Rec.aux r, 16),
      (s.rdNat (Rec.aux r + 8) 8, 4 * s.rdNat (Rec.aux r) 4), (Rec.dst r, 16), (s.rdNat (Rec.dst r + 8) 8, 4 * rows),
      (Rec.aux2 r, Rec.rowsSpan r rows), (Rec.stage r, Rec.stageLen r)]
  | 6 => [(Rec.src r, l)]
  | 7 => [(Rec.dst r, l)]
  | _ => []

/-- The length this member sends to position k of an A2A (R344). -/
def State.a2aLen (s : State) (r : Image) (k : Nat) : Nat :=
  if Rec.aux r = 0 then Rec.len r else s.rdNat (Rec.aux r + 4 * k) 4

/-- Cause 0x73. (DEDUCED, log 70). -/
def State.recBad73 (s : State) (j : Join) (r : Image) : Bool :=
  let n := (State.recordRanks j r).length
  let k := Rec.kind r
  (s.recAreas j r).any (fun a => !s.areaOk a) || Rec.stage r % 64 != 0 || (k != 5 && Rec.len r == 0) ||
    (k == 2 && (List.range n).any fun i => decide (Rec.len r < s.a2aLen r i)) ||
    (k == 4 && (Rec.rowLen r == 0 || decide (512 < Rec.rowLen r) || Rec.ntab r == 0)) ||
    ((k == 0 || k == 4) && decide (window r n (s.slotOf r) < 64))

/-- Cause 0x77. -/
def State.recBad77 (s : State) (j : Join) (r : Image) : Bool :=
  let ranks := State.recordRanks j r
  let i := (ranks.findIdx? (· == j.ownRank)).getD 0
  let g := Rec.ugrp r
  let u := s.updImage
  Rec.upd r && (decide (Upd.ngrp u ≤ g) || u.isEmpty ||
    (if Rec.kind r = 0 then
      let x : Shards := ⟨ranks.length, Rec.len r, match s.etype (Rec.etype r) with
        | some t => wireElems t
        | none => 32⟩
      Upd.rows u g || Rec.dst r != Upd.grad u g || x.nelem % 512 != 0 || decide (Upd.nblk u g < x.unitsOf i)
    else
      let n := ranks.length
      !Upd.rows u g ||
        decide (Upd.nblk u g < firstRow n (Rec.ntab r) (i + 1) - firstRow n (Rec.ntab r) i)))

/-- The first failing check of a record that has been read, in ascending cause order (R353). -/
def State.recordCause (s : State) (j : Join) (r : Image) : Option Byte :=
  let k := Rec.kind r
  let own := j.ownRank
  let ranks := State.recordRanks j r
  let blocked := match s.etype (Rec.etype r) with
    | some t => t.block != 0
    | none => false
  if recBad70 r blocked then some 0x70
  else if decide (Plan.ngroup j.plan ≤ Rec.group r) || ((k == 6 || k == 7) && Rec.group r != 0) then some 0x71
  else if !ranks.contains own || (k == 3 && !ranks.contains (Rec.peer r)) ||
      ((k == 6 || k == 7) && (Rec.peer r == own || decide (j.members.length ≤ Rec.peer r))) then some 0x72
  else if s.recBad73 j r then some 0x73
  else if k = 0 ∧ (s.wireType r).isNone then some 0x74
  else if s.recBad77 j r then some 0x77
  else none

/-! ### Open collectives -/

/-- A count kept by rank: 0 where none is kept. -/
def countOf (l : List (Nat × Nat)) (k : Nat) : Nat := match l.find? fun x => x.1 == k with
  | some x => x.2
  | none => 0

def setCount (l : List (Nat × Nat)) (k v : Nat) : List (Nat × Nat) := (k, v) :: l.filter fun x => x.1 != k

namespace Coll

/-- The other members. -/
def others (c : Coll) : List Nat := c.members.filter (· != c.own)
/-- The position of a rank in the group. -/
def pos (c : Coll) (rank : Nat) : Nat := (c.members.findIdx? (· == rank)).getD 0
def n (c : Coll) : Nat := c.members.length
def same (c d : Coll) : Bool := c.kind == d.kind && c.group == d.group && c.number == d.number
def isPair (c : Coll) : Bool := c.kind == 6 || c.kind == 7

/-- The member that owns a row of an SROW. -/
def rowRank (c : Coll) (r : Nat) : Option Nat := c.members[rowOwner c.n (Rec.ntab c.record) r]?

/-- Every frame of a source up to its k-th has arrived. -/
def allSeen (c : Coll) (src k : Nat) : Bool := (List.range k).all fun i => c.seen.contains (src, i)

/-- Every frame of a source's message has arrived (R333). -/
def messageIn (c : Coll) (src : Nat) : Bool := c.ends.any fun x => x.1 == src && c.allSeen src x.2

/-- The kind and the sizes that its record gives; PUT and GET compare their lengths by cause 0x7D instead.
(DESIGN CHOICE, log 110). -/
def shape (c : Coll) : Option CollShape :=
  if c.isPair then none else some ⟨c.kind, Rec.etypeByte c.record, Rec.len c.record⟩

/-- A frame's sender has another kind or other sizes (R335). (DESIGN CHOICE, log 110). -/
def differs (c : Coll) (f : Frame) : Bool := match c.shape, f.shape with
  | some x, some y => x != y
  | _, _ => false

end Coll

namespace State

def collType (s : State) (c : Coll) : EType := (s.wireType c.record).getD (.plain (.flt Fmt.b32) 32)
def collShards (s : State) (c : Coll) : Shards := ⟨c.n, Rec.len c.record, wireElems (s.collType c)⟩
def collWindow (s : State) (c : Coll) : Nat := window c.record c.n (s.slotOf c.record)
/-- The blocks this module owns. -/
def ownBlocks (s : State) (c : Coll) : List Nat := (s.collShards c).blocksOf (c.pos c.own)

/-- The local part of a collective is complete (R337). -/
def collComplete (s : State) (c : Coll) : Bool :=
  match c.kind with
  | 0 => (List.range (Rec.len c.record)).all c.accounted.contains && c.offered.isEmpty && c.unacked.isEmpty &&
      (s.ownBlocks c).all c.reduced.contains
  | 2 => c.others.all c.messageIn && !(s.fabric.backlog.any fun x =>
      x.2.kind == 1 && x.2.group.toNat == c.group && x.2.coll.toNat == c.number)
  | 3 => if Rec.peer c.record = c.own then c.unacked.isEmpty else c.messageIn (Rec.peer c.record)
  | 4 => c.rowsLeft.isEmpty && c.others.all c.endsSent.contains && c.unacked.isEmpty && c.listed
  | 6 => c.started && c.unacked.isEmpty
  | _ => c.others.all c.messageIn

/-- Keep a collective's new state, or end it: its queue entry goes and its tally is added (R337). -/
def settleColl (s : State) (c : Coll) : State :=
  if s.collComplete c then
    let s := s.modFabric fun b => { b with colls := b.colls.filter fun d => !c.same d }
    let s := s.modTile c.p fun t => { t with portWork := t.portWork.filter (· != c.issueNo) }
    match c.te with
    | some k => s.addTally c.p k 1
    | none => s
  else s.modFabric fun b => { b with colls := b.colls.map fun d => if c.same d then c else d }

/-- A program fault found by a collective: the issuing tile takes it (R353). (DEDUCED, log 70). -/
def collFault (s : State) (c : Coll) (cause : Byte) : State := s.programFaultAt c.p cause c.pc c.word

/-- The header of a frame of a collective to a job rank (R332). (DESIGN CHOICE, log 69). -/
def collFrame (s : State) (c : Coll) (dst : Nat) (kind : Byte) (fidx arg nblk : Nat) (nf : Bool) (l : List Byte) :
    Frame :=
  let fpr := match s.fabric.job with
    | some j => Plan.fpr j.plan ((j.planRank dst).getD 0)
    | none => []
  let tag := match s.job with
    | some j => j.jobtag
    | none => 0
  { tag := tag, kind := kind, via := false, src := BitVec.ofNat 8 c.own, dst := BitVec.ofNat 8 dst,
    group := BitVec.ofNat 8 c.group, nblk := BitVec.ofNat 8 nblk, dstid := dstId fpr, coll := BitVec.ofNat 32 c.number,
    fidx := BitVec.ofNat 32 fidx, arg := BitVec.ofNat 64 arg, nfmask := if nf then 1 else 0, payload := l, shape := c.shape }

/-- Collectives whose completion waits for a frame to leave (R337). -/
def settleSent (s : State) : State :=
  (s.fabric.colls.filter fun c => c.kind == 2).foldl (fun s c => s.settleColl c) s

/-- Let waiting frames go, and end what waited for them. -/
def pumpAll (s : State) : State := s.pump.settleSent

end State

/-- The bytes that one frame of a message of bytes carries at most: the last two of its payload say how many.
(DESIGN CHOICE, log 69). -/
def byteRoom : Nat := 2046

/-- A state with one of its open collectives taken out, while an event works on both. -/
abbrev CollRun := State × Coll

namespace CollRun

/-- Send one frame of a collective, numbered from 0 for each destination (R332); all but a GRANT wait for their
acknowledgement. (DESIGN CHOICE, log 69). -/
def send (x : CollRun) (dst : Nat) (kind : Byte) (arg nblk : Nat) (nf : Bool) (l : List Byte) : CollRun :=
  let (s, c) := x
  let k := countOf c.nextF dst
  (s.sendTo dst (s.collFrame c dst kind k arg nblk nf l),
    { c with nextF := setCount c.nextF dst (k + 1),
             unacked := if kind = 2 then c.unacked else c.unacked ++ [(dst, k)] })

/-- Send `len` bytes at an address as one message: frames of 2,046 bytes, closed by a shorter one. (DESIGN CHOICE, log 69). -/
def sendBytes (x : CollRun) (dst base len : Nat) : CollRun :=
  (List.range (len / byteRoom + 1)).foldl (fun (y : CollRun) k =>
    y.send dst 1 (byteRoom * k) 0 false (y.1.rdBytes (base + byteRoom * k) (min byteRoom (len - byteRoom * k)))) x

/-- Move this module's own part. -/
def copyOwn (x : CollRun) (src dst len : Nat) : CollRun :=
  ((x.1.wrBytes dst (x.1.rdBytes src len)).modulePoison (x.1.poisonedLines ((List.range len).map (src + ·))), x.2)

end CollRun

end Sys2Proof.Machine
end

