-- ==== Sys2Proof/Machine/Collect.lean ====
section
/-!
DEFINITION. The collectives at work: starting one, contributions and their windows, received frames, reductions and the
fabric instructions (R333 to R348, R353).
-/
namespace Sys2Proof.Machine

namespace CollRun

/-! ### Reduce-scatter (R338 to R342) -/

/-- The bytes of a wire block: its elements, then its scale. (DESIGN CHOICE, log 69). -/
def blockBytes (t : EType) (w : WireBlock) : List Byte :=
  packCodes t.width w.codes ++ leBytes w.scale t.scaleBytes

def blockOf (t : EType) (nf : Bool) (l : List Byte) : WireBlock :=
  ⟨leNat ((l.drop (wireBytes t)).take t.scaleBytes), unpackCodes t.width (wireElems t) (l.take (wireBytes t)), nf⟩

/-- A slot of the staging area that no staged contribution holds: the first free one from a place that no rule gives (R340).
(DESIGN CHOICE, log 71). -/
def freeSlot (x : CollRun) (src k : Nat) (used : List Nat) : Nat :=
  let slots := x.2.n * x.1.collWindow x.2
  let at0 := Config.stageSlot src k
  match (List.range (used.length + 1)).find? fun i => !used.contains ((at0 + i) % slots) with
  | some i => (at0 + i) % slots
  | none => at0 % slots

/-- The bytes of a contribution go to its slot. -/
def fillSlot (x : CollRun) (slot : Nat) (l : List Byte) : State :=
  x.1.wrBytes (Rec.stage x.2.record + x.1.slotOf x.2.record * slot) l

/-- Stage a contribution of source `src` at its owner; none where the source already accounted for it (cause 0x7C). -/
def contribute (x : CollRun) (src b : Nat) (w : Option WireBlock) : Option CollRun :=
  let (s, c) := x
  if c.reduced.contains b || c.contrib.any (fun y => y.block == b && y.src == src) then none
  else match w with
    | none => some (s, { c with contrib := c.contrib ++ [⟨b, src, 0, none⟩] })
    | some v =>
      let slot := freeSlot x src b ((c.contrib.filter fun y => y.given.isSome).map (·.slot))
      some (fillSlot x slot (blockBytes (s.collType c) v), { c with contrib := c.contrib ++ [⟨b, src, slot, some v⟩] })

/-- Account for one block of this module (R339): it goes to its owner, this module among them, under the owner's grant. -/
def giveBlock (x : CollRun) (b : Nat) (w : Option WireBlock) : CollRun :=
  (x.1, { x.2 with accounted := x.2.accounted ++ [b], offered := x.2.offered ++ [(b, w)] })

/-- Give one offered block if its owner's grant covers it and no earlier block waits for that owner: sent, or staged here. -/
def offerBlock (a : CollRun × List Nat) (o : Nat × Option WireBlock) : Option (CollRun × List Nat) :=
  let (y, blocked) := a
  let owner := y.2.members.getD ((y.1.collShards y.2).owner o.1) 0
  if !blocked.contains owner && decide (o.1 < countOf y.2.grants owner) then
    if owner = y.2.own then (y.contribute owner o.1 o.2).map fun z => (z, blocked)
    else some (match o.2 with
      | some w => y.send owner 1 o.1 1 w.nonfin (blockBytes (y.1.collType y.2) w)
      | none => y.send owner 3 o.1 0 false (leBytes 1 8), blocked)
  else some ((y.1, { y.2 with offered := y.2.offered ++ [o] }), owner :: blocked)

/-- Give the offered blocks that their owners' grants cover, each owner's in order (R340); none where an own one is accounted for
twice. -/
def flushBlocks (x : CollRun) : Option CollRun :=
  let start : CollRun := (x.1, { x.2 with offered := [] })
  (x.2.offered.foldlM offerBlock (start, [])).map (·.1)

/-- The lowest owned block that is not reduced. -/
def lowest (x : CollRun) : Option Nat := (x.1.ownBlocks x.2).find? fun b => !x.2.reduced.contains b

/-- Grant every source, this module among them, the window above the lowest unreduced block (R340). -/
def grantBlocks (x : CollRun) : CollRun :=
  match x.lowest with
  | none => x
  | some b =>
    let bound := b + x.1.collWindow x.2
    x.2.others.foldl (fun y r => y.send r 2 bound 0 false []) (x.1, { x.2 with grants := setCount x.2.grants x.2.own bound })

/-- The elements of block b of the memory source (R339). -/
def memBlock (x : CollRun) (b : Nat) : WireBlock :=
  let t := x.1.collType x.2
  blockOf t false (x.1.rdBytes (Rec.src x.2.record + b * wireBytes t) (wireBytes t) ++
    x.1.rdBytes (Rec.aux x.2.record + b * t.scaleBytes) t.scaleBytes)

/-! ### Sparse rows (R345) -/

/-- Stage one row of source `src` at its owner, in a slot of its own. -/
def stageRow (x : CollRun) (src row : Nat) (codes : List Nat) : CollRun :=
  let slot := freeSlot x src row (x.2.rowsIn.map (·.slot))
  (fillSlot x slot (codes.flatMap fun k => leBytes k 4), { x.2 with rowsIn := x.2.rowsIn ++ [⟨row, src, slot, codes⟩] })

/-- Give one row if its owner's grant covers it and no earlier row waits for that owner: sent, or staged here. -/
def sendRow (y : CollRun) (r : Nat × List Nat) : CollRun :=
  let c := y.2
  let o := (c.rowRank r.1).getD 0
  let waits := c.rowsLeft.any fun z => c.rowRank z.1 == some o
  if !waits && decide (countOf c.rowsSent o < countOf c.grants o) then
    let z := if o = c.own then y.stageRow o r.1 r.2 else y.send o 1 r.1 1 false (r.2.flatMap fun k => leBytes k 4)
    (z.1, { z.2 with rowsSent := setCount z.2.rowsSent o (countOf z.2.rowsSent o + 1) })
  else (y.1, { c with rowsLeft := c.rowsLeft ++ [r] })

/-- Send END to an owner with no row left. -/
def sendEnd (y : CollRun) (o : Nat) : CollRun :=
  if y.2.endsSent.contains o || y.2.rowsLeft.any (fun r => y.2.rowRank r.1 == some o) then y
  else
    let z := y.send o 4 0 0 false []
    (z.1, { z.2 with endsSent := z.2.endsSent ++ [o] })

/-- Send the rows that the owners' grants cover, in order, and END to each owner with no row left. -/
def flushRows (x : CollRun) : CollRun :=
  let start : CollRun := (x.1, { x.2 with rowsLeft := [] })
  let y := x.2.rowsLeft.foldl sendRow start
  y.2.others.foldl sendEnd y

/-- Grant source `o` the rows it may send in all: those reduced and the window (R340, R345). (DEDUCED, log 70). -/
def grantRows (x : CollRun) (o : Nat) : CollRun :=
  let bound := countOf x.2.rowsDone o + x.1.collWindow x.2
  if o = x.2.own then (x.1, { x.2 with grants := setCount x.2.grants o bound }) else x.send o 2 bound 0 false []

/-- Whether member `m` has given everything up to row r: row r or a row above, or END, with every frame before it here; of this
module, no row up to r is left to stage. -/
def passed (c : Coll) (r m : Nat) : Bool :=
  if m = c.own then !(c.rowsLeft.any fun z => c.rowRank z.1 == some m && decide (z.1 ≤ r))
  else (c.ends.any fun x => x.1 == m && c.allSeen m x.2) ||
    c.rowsGot.any fun g => g.1 == m && decide (r ≤ g.2.2) && c.allSeen m g.2.1

/-- A member has no row left for this owner (R345). -/
def rowsOver (c : Coll) (m : Nat) : Bool :=
  if m = c.own then !(c.rowsLeft.any fun z => c.rowRank z.1 == some m) else c.messageIn m

/-- Every member has sent END and every row is reduced: the row list is written, and with UPD = 1 handed over (R345). -/
def finishRows (x : CollRun) : CollRun :=
  let (s, c) := x
  let r := c.record
  if c.listed || !c.rowsIn.isEmpty || !(c.members.all (rowsOver c)) then x
  else
    let idx := (c.dests.getD 1 (0, 0)).1
    let s1 := (s.wrNat (Rec.dst r) 4 c.rowsOut.length).wrBytes idx (c.rowsOut.flatMap fun k => leBytes k 4)
    let s2 :=
      if Rec.upd r then s1.requestUnits none none (Rec.ugrp r)
        (c.rowsOut.zipIdx.map fun k => (k.1, Rec.aux2 r + 4 * Rec.rowp r * k.2))
      else s1
    (s2, { c with listed := true })

end CollRun

/-! ### Receiving -/

/-- Write one frame of a byte message: where it belongs, and whether it fits (R344, R348). -/
def CollRun.takeBytes (x : CollRun) (f : Frame) : Except Byte CollRun :=
  let (s, c) := x
  let src := f.src.toNat
  let len := Rec.len c.record
  let a := f.arg.toNat
  let bad : Byte := if c.kind = 7 then 0x7D else 0x7B
  let base := match c.kind with
    | 1 => Rec.dst c.record + c.pos src * len
    | 2 => Rec.dst c.record + c.pos src * len
    | _ => Rec.dst c.record
  let last := decide (f.payload.length < byteRoom)
  if f.nblk != 0 || decide (byteRoom < f.payload.length) || c.kind = 6 || (c.kind = 3 && src != Rec.peer c.record) then .error 0x7B
  else if len < a + f.payload.length || (last && c.kind != 2 && a + f.payload.length != len) then .error bad
  else
    .ok (s.wrBytes (base + a) f.payload, { c with ends := if last then c.ends ++ [(src, f.fidx.toNat + 1)] else c.ends })

/-- Take the wire blocks of one frame of an RSCAT (R339, R340). -/
def CollRun.takeBlocks (x : CollRun) (f : Frame) : Except Byte CollRun :=
  let (s, c) := x
  let t := s.collType c
  let n := wireBytes t + t.scaleBytes
  let k := f.nblk.toNat
  let own := s.ownBlocks c
  let bs := (List.range k).map (f.arg.toNat + ·)
  if k = 0 || decide (f.payload.length < k * n) || !(bs.all own.contains) then .error 0x7B
  else
    (List.range k).foldlM (fun (y : CollRun) i =>
      match y.contribute f.src.toNat (f.arg.toNat + i)
          (some (CollRun.blockOf t (f.nfmask.getLsbD i) ((f.payload.drop (i * n)).take n))) with
      | some z => .ok z
      | none => .error 0x7C) x

/-- Take the rows of one frame of an SROW (R345). (DEDUCED, log 70). -/
def CollRun.takeRows (x : CollRun) (f : Frame) : Except Byte CollRun :=
  let (s, c) := x
  let r := c.record
  let n := 4 * Rec.rowLen r
  let row := f.arg.toNat
  if f.nblk != 1 || decide (f.payload.length < n) || decide (Rec.ntab r ≤ row) ||
      c.rowRank row != some c.own then .error 0x7B
  else .ok (CollRun.stageRow (s, { c with rowsGot := c.rowsGot ++ [(f.src.toNat, f.fidx.toNat, row)] }) f.src.toNat row
    (unpackCodes 32 (Rec.rowLen r) (f.payload.take n)))

/-- A GRANT (R340, R345, R348). -/
def CollRun.takeGrant (x : CollRun) (f : Frame) : Except Byte CollRun :=
  let c := x.2
  let src := f.src.toNat
  let c1 := { c with grants := setCount c.grants src (max (countOf c.grants src) f.arg.toNat) }
  match c.kind with
  | 0 => match CollRun.flushBlocks (x.1, c1) with
    | some y => .ok y
    | none => .error 0x7C
  | 4 => .ok (CollRun.flushRows (x.1, c1))
  | 6 =>
    if c.started then .ok x
    else .ok (CollRun.sendBytes (x.1, { c with started := true }) src (Rec.src c.record) (Rec.len c.record))
  | _ => .error 0x7B

/-- A SKIP: the blocks that its payload counts, from ARG, are absent from the sender (R339). -/
def CollRun.takeSkip (x : CollRun) (f : Frame) : Except Byte CollRun :=
  if x.2.kind != 0 then .error 0x7B
  else
    let own := x.1.ownBlocks x.2
    (List.range (leNat (f.payload.take 8))).foldlM (fun (y : CollRun) i =>
      if !own.contains (f.arg.toNat + i) then .error 0x7B
      else match y.contribute f.src.toNat (f.arg.toNat + i) none with
        | some z => .ok z
        | none => .error 0x7C) x

/-- One frame of an open collective, by its KIND: DATA, GRANT, SKIP or END (R332, R340, R345, R348). A later copy is discarded
(R333). -/
def CollRun.take (x : CollRun) (f : Frame) : Except Byte CollRun :=
  let c := x.2
  let id := (f.src.toNat, f.fidx.toNat)
  if !c.members.contains id.1 || c.differs f then .error 0x7B
  else if c.seen.contains id then .ok x
  else
    let y : CollRun := (x.1, { c with seen := c.seen ++ [id] })
    match f.kind.toNat with
    | 1 => match c.kind with
      | 0 => y.takeBlocks f
      | 4 => y.takeRows f
      | _ => y.takeBytes f
    | 2 => y.takeGrant f
    | 3 => y.takeSkip f
    | _ =>
      if c.kind != 4 then .error 0x7B
      else .ok (CollRun.finishRows (y.1, { y.2 with ends := c.ends ++ [id] }))

namespace State

/-- Give a frame to an open collective. -/
def feedColl (s : State) (c : Coll) (f : Frame) : State :=
  match CollRun.take (s, c) f with
  | .ok x => x.1.settleColl x.2
  | .error e => s.collFault c e

/-- The open collective that a frame names (R332): for PUT and GET, DATA belongs to the GET of the pair and a GRANT to
its PUT. -/
def collOf (s : State) (f : Frame) : Option Coll :=
  s.fabric.colls.find? fun c =>
    c.number == f.coll.toNat &&
      (if 0x80 ≤ f.group.toNat then
        c.kind == (if f.kind = 1 then 7 else 6) && c.group == 0x80 + f.src.toNat && f.group.toNat == 0x80 + c.own
      else !c.isPair && c.group == f.group.toNat)

/-- The counter of a pair's PUTs or GETs. -/
def pairCount (s : State) (get : Bool) (a b : Nat) : Nat :=
  s.fabric.pairCtr.countP fun x => x == (get, a, b)

/-- Whether the collective that a frame names has been issued here already. -/
def collIssued (s : State) (j : Join) (f : Frame) : Bool :=
  let own := j.ownRank
  if 0x80 ≤ f.group.toNat then
    decide (f.coll.toNat < if f.kind = 1 then s.pairCount true f.src.toNat own else s.pairCount false own f.src.toNat)
  else if h : f.group.toNat < 16 then decide (f.coll.toNat < s.fabric.groupCtr[f.group.toNat])
  else false

def discard (s : State) : State := s.modFabric fun b => { b with discard := satAdd32 b.discard 1 }

/-- Deliver a frame of a collective (R333 to R335): to the open collective, kept until its collective is issued here, or
discarded. (DEDUCED, log 72). -/
def deliver (s : State) (f : Frame) : State :=
  match s.job, s.fabric.job with
  | some k, some j =>
    if f.tag != k.jobtag || decide (j.members.length ≤ f.src.toNat) || f.dst.toNat != j.ownRank then s.discard
    else match s.collOf f with
      | some c => s.feedColl c f
      | none => if s.collIssued j f then s.discard else s.modFabric fun b => { b with early := b.early ++ [f] }
  | _, _ => s.discard

/-! ### Starting (R335) -/

/-- The first work of a collective, once it is numbered. -/
def startWork (x : CollRun) : Option CollRun :=
  let (s, c) := x
  let r := c.record
  let len := Rec.len r
  match c.kind with
  | 0 =>
    let y := CollRun.grantBlocks x
    if Rec.stream r then some y
    else
      let t := s.collType c
      let z := CollRun.flushBlocks ((List.range len).foldl (fun (y : CollRun) b => y.giveBlock b (some (y.memBlock b))) y)
      z.map fun z => (z.1.readByModule ((List.range (len * wireBytes t)).map (Rec.src r + ·) ++
        (List.range (len * t.scaleBytes)).map (Rec.aux r + ·)), z.2)
  | 1 =>
    let y := x.copyOwn (Rec.src r) (Rec.dst r + c.pos c.own * len) len
    some (c.others.foldl (fun y m => y.sendBytes m (Rec.src r) len) y)
  | 2 =>
    let y := x.copyOwn (Rec.src r + c.pos c.own * len) (Rec.dst r + c.pos c.own * len) (s.a2aLen r (c.pos c.own))
    some (c.others.foldl (fun y m => y.sendBytes m (Rec.src r + c.pos m * len) (s.a2aLen r (c.pos m))) y)
  | 3 =>
    if Rec.peer r = c.own then
      some (c.others.foldl (fun y m => y.sendBytes m (Rec.src r) len) (x.copyOwn (Rec.src r) (Rec.dst r) len))
    else some x
  | 4 =>
    let rows := s.rowList (Rec.aux r)
    let all := rows.zipIdx.map fun k =>
      (k.1, unpackCodes 32 (Rec.rowLen r) (s.rdBytes (Rec.src r + 4 * Rec.rowp r * k.2) (4 * Rec.rowLen r)))
    let y := c.members.foldl CollRun.grantRows (s, { c with rowsLeft := all.filter fun k => (c.rowRank k.1).isSome })
    some (CollRun.finishRows (CollRun.flushRows y))
  | 5 => some (c.others.foldl (fun y m => y.sendBytes m 0 0) x)
  | 6 => some x
  | _ => some (x.send (Rec.peer r) 2 len 0 false [])

/-- Read the record of a waiting COLL and start it. (DEDUCED, log 68). -/
def startColl (s : State) (w : WaitColl) : State :=
  match s.fabric.job with
  | none => s
  | some j =>
    let r := s.rdBytes w.addr 64
    let s := s.modTile w.p fun t => { t with collWait := t.collWait.erase w.sd }
    if s.poisonIn w.addr 64 then s.readByModule ((List.range 64).map (w.addr + ·)) else
    match s.recordCause j r with
    | some cause => s.programFaultAt w.p cause w.pc w.word
    | none =>
      let k := Rec.kind r
      let own := j.ownRank
      let pair := k == 6 || k == 7
      let group := if pair then 0x80 + Rec.peer r else Rec.group r
      let number :=
        if k = 7 then s.pairCount true (Rec.peer r) own
        else if k = 6 then s.pairCount false own (Rec.peer r)
        else s.fabric.groupCtr.getD group 0
      let s := s.modFabric fun b =>
        if k = 7 then { b with pairCtr := (true, Rec.peer r, own) :: b.pairCtr }
        else if k = 6 then { b with pairCtr := (false, own, Rec.peer r) :: b.pairCtr }
        else if h : group < 16 then { b with groupCtr := b.groupCtr.set group (number + 1) }
        else b
      let n := (State.recordRanks j r).length
      let areas := s.recAreas j r
      let dests := match k with
        | 0 => areas.drop (if Rec.stream r then 0 else if areas.length = 4 then 2 else 1)
        | 4 => (Rec.dst r, 4) :: (areas.drop 4).take 2
        | _ => if k = 6 ∨ k = 5 then [] else [(Rec.dst r, if k = 1 ∨ k = 2 then n * Rec.len r else Rec.len r)]
      let c : Coll :=
        { p := w.p, te := w.te, issueNo := w.issueNo, pc := w.pc, word := w.word, group := group, number := number,
          kind := k, record := r, dests := dests, members := State.recordRanks j r, own := own, unacked := [], nextF := [],
          seen := [], ends := [], started := false, accounted := [], offered := [], grants := [], contrib := [],
          reduced := [], empties := [], handed := [], rowsLeft := [], rowsSent := [], endsSent := [], rowsIn := [],
          rowsGot := [], rowsDone := [], rowsOut := [], listed := false }
      let s := s.modFabric fun b => { b with colls := b.colls ++ [c] }
      let s := s.modTile w.p fun t => t.setReg w.sd (BitVec.ofNat 64 (2 ^ 32 * group + number))
      let s := match startWork (s, c) with
        | some x => x.1.settleColl x.2
        | none => s.collFault c 0x7C
      let early := s.fabric.early
      early.foldl deliver (s.modFabric fun b => { b with early := [] })

/-- Start the waiting COLLs, in issue order, once the join is complete (R326). -/
def startColls (s : State) : State :=
  match s.fabric.job with
  | none => s
  | some j =>
    if !j.joined then s
    else
      let l := s.fabric.waiting
      l.foldl startColl (s.modFabric fun b => { b with waiting := [] })

end State

/-! ### COLL (R335, R353) -/

/-- COLL: at the head of the PORT queue, where it waits for the join, and started at once where that is complete. The record's KIND
says which collective it is. (DEDUCED, log 68). -/
def collOp (s : State) (i : Instr) (p : TileId) (sd sa : BitVec 5) (te : Bool) (t : BitVec 6) (rsv : BitVec 41) : TileOp :=
  let x := s.tile p
  let a := (x.reg sa).toNat
  let word := Layout.coll sd sa te t rsv
  (TileOp.mk p word 8 [sd, sa]
    [chkRsv (rsv != 0 || (!te && t != 0)), { bad := a % 64 != 0 || !s.inDdr a 64, cause := 0x70 },
      { bad := s.fabric.job.isNone, cause := 0x71 }] false true fun s =>
      let n := x.issueNo + 1
      let s := s.modTile p fun y => { y with portWork := y.portWork ++ [n], collWait := y.collWait ++ [sd] }
      (s.modFabric fun b =>
        { b with waiting := b.waiting ++ [⟨p, sd, a, if te then some t else none, n, x.pc.truncate 48, word⟩] }).startColls).inPort
    i (some sd) (s.assignStalls p)

/-- COLL whose record has KIND 0: the exact reduce-scatter (R338 to R342). -/
def opRscat (p : TileId) (sd sa : BitVec 5) (te : Bool) (t : BitVec 6) (rsv : BitVec 41) (s : State) : TileOp :=
  collOp s (.rscat p sd sa te t rsv) p sd sa te t rsv

def execRscat (p : TileId) (sd sa : BitVec 5) (te : Bool) (t : BitVec 6) (rsv : BitVec 41) (s : State) :
    Host.Outcome State Fault Refusal := s.run (opRscat p sd sa te t rsv s)

/-- KIND 1 (R344). -/
def opAgather (p : TileId) (sd sa : BitVec 5) (te : Bool) (t : BitVec 6) (rsv : BitVec 41) (s : State) : TileOp :=
  collOp s (.agather p sd sa te t rsv) p sd sa te t rsv

def execAgather (p : TileId) (sd sa : BitVec 5) (te : Bool) (t : BitVec 6) (rsv : BitVec 41) (s : State) :
    Host.Outcome State Fault Refusal := s.run (opAgather p sd sa te t rsv s)

/-- KIND 2 (R344). -/
def opA2a (p : TileId) (sd sa : BitVec 5) (te : Bool) (t : BitVec 6) (rsv : BitVec 41) (s : State) : TileOp :=
  collOp s (.a2a p sd sa te t rsv) p sd sa te t rsv

def execA2a (p : TileId) (sd sa : BitVec 5) (te : Bool) (t : BitVec 6) (rsv : BitVec 41) (s : State) :
    Host.Outcome State Fault Refusal := s.run (opA2a p sd sa te t rsv s)

/-- KIND 3 (R344). -/
def opBcast (p : TileId) (sd sa : BitVec 5) (te : Bool) (t : BitVec 6) (rsv : BitVec 41) (s : State) : TileOp :=
  collOp s (.bcast p sd sa te t rsv) p sd sa te t rsv

def execBcast (p : TileId) (sd sa : BitVec 5) (te : Bool) (t : BitVec 6) (rsv : BitVec 41) (s : State) :
    Host.Outcome State Fault Refusal := s.run (opBcast p sd sa te t rsv s)

/-- KIND 4 (R345). -/
def opSrow (p : TileId) (sd sa : BitVec 5) (te : Bool) (t : BitVec 6) (rsv : BitVec 41) (s : State) : TileOp :=
  collOp s (.srow p sd sa te t rsv) p sd sa te t rsv

def execSrow (p : TileId) (sd sa : BitVec 5) (te : Bool) (t : BitVec 6) (rsv : BitVec 41) (s : State) :
    Host.Outcome State Fault Refusal := s.run (opSrow p sd sa te t rsv s)

/-- KIND 5 (R344). -/
def opBarrier (p : TileId) (sd sa : BitVec 5) (te : Bool) (t : BitVec 6) (rsv : BitVec 41) (s : State) : TileOp :=
  collOp s (.barrier p sd sa te t rsv) p sd sa te t rsv

def execBarrier (p : TileId) (sd sa : BitVec 5) (te : Bool) (t : BitVec 6) (rsv : BitVec 41) (s : State) :
    Host.Outcome State Fault Refusal := s.run (opBarrier p sd sa te t rsv s)

/-- KIND 6 (R348). -/
def opPut (p : TileId) (sd sa : BitVec 5) (te : Bool) (t : BitVec 6) (rsv : BitVec 41) (s : State) : TileOp :=
  collOp s (.put p sd sa te t rsv) p sd sa te t rsv

def execPut (p : TileId) (sd sa : BitVec 5) (te : Bool) (t : BitVec 6) (rsv : BitVec 41) (s : State) :
    Host.Outcome State Fault Refusal := s.run (opPut p sd sa te t rsv s)

/-- KIND 7 (R348). -/
def opGet (p : TileId) (sd sa : BitVec 5) (te : Bool) (t : BitVec 6) (rsv : BitVec 41) (s : State) : TileOp :=
  collOp s (.get p sd sa te t rsv) p sd sa te t rsv

def execGet (p : TileId) (sd sa : BitVec 5) (te : Bool) (t : BitVec 6) (rsv : BitVec 41) (s : State) :
    Host.Outcome State Fault Refusal := s.run (opGet p sd sa te t rsv s)

/-! ### FSEND (R343, R353) -/

/-- The open streamed RSCAT that a value COLL returned names. -/
def State.openStream (s : State) (v : W64) : Option Coll :=
  s.fabric.colls.find? fun c =>
    c.kind == 0 && Rec.stream c.record && v.toNat == 2 ^ 32 * c.group + c.number

/-- FSEND ARM: the slot serves NB blocks from b0. It arms its slot at issue (R214), so nothing of it waits in the queue.
(DEDUCED, log 39). -/
def opFsendArm (p : TileId) (ws : BitVec 3) (sa sb : BitVec 5) (rsv : BitVec 43) (s : State) : TileOp :=
  let t := s.tile p
  let b0 := lo32 (t.reg sb)
  let nb := hi32 (t.reg sb)
  let c := s.openStream (t.reg sa)
  TileOp.mk p (Layout.fsendArm ws sa sb rsv) 8 [sa, sb]
    [chkRsv (rsv != 0), { bad := s.fabric.job.isNone, cause := 0x71 },
      { bad := match c with
          | some c => nb == 0 || decide (Rec.len c.record < b0 + nb)
          | none => true, cause := 0x75 }] (s.portFull p || t.slotBusy ws true) true fun s =>
      match c with
      | some c => s.thenTile p fun u =>
          u.setWslot ws (.fabric ⟨BitVec.ofNat 8 c.group, BitVec.ofNat 32 c.number, Rec.etype c.record, b0, b0 + nb⟩)
      | none => s

def execFsendArm (p : TileId) (ws : BitVec 3) (sa sb : BitVec 5) (rsv : BitVec 43) (s : State) :
    Host.Outcome State Fault Refusal := s.run (opFsendArm p ws sa sb rsv s)

/-- FSEND SKIP: this member gives nothing for the blocks (R339, R343). -/
def opFsendSkip (p : TileId) (ws : BitVec 3) (sa sb : BitVec 5) (rsv : BitVec 43) (s : State) : TileOp :=
  let t := s.tile p
  let b0 := lo32 (t.reg sb)
  let nb := hi32 (t.reg sb)
  let c := s.openStream (t.reg sa)
  (TileOp.mk p (Layout.fsendSkip ws sa sb rsv) 8 [sa, sb]
    [chkRsv (rsv != 0 || ws != 0), { bad := s.fabric.job.isNone, cause := 0x71 },
      { bad := match c with
          | some c => nb == 0 || decide (Rec.len c.record < b0 + nb)
          | none => true, cause := 0x75 }] false true fun s =>
      match s.openStream (t.reg sa) with
      | some c => match ((List.range nb).foldl (fun (y : CollRun) i => y.giveBlock (b0 + i) none) (s, c)).flushBlocks with
        | some z => z.1.settleColl z.2
        | none => s.collFault c 0x7C
      | none => s).inPort (.fsendSkip p ws sa sb rsv) none (s.portStalled p)

def execFsendSkip (p : TileId) (ws : BitVec 3) (sa sb : BitVec 5) (rsv : BitVec 43) (s : State) :
    Host.Outcome State Fault Refusal := s.run (opFsendSkip p ws sa sb rsv s)

/-- Give one wire block to the fabric slot `ws` of tile p, in the order in which groups leave the drain (R343): none
beyond the slot's NB blocks (cause 0x76). The slot is released with its last block. -/
def State.handBlock (s : State) (p : TileId) (ws : BitVec 3) (w : WireBlock) : Option State :=
  match (s.tile p).wslot ws with
  | .fabric f =>
    let s1 := s.modTile p fun t =>
      t.setWslot ws (if f.next + 1 < f.last then .fabric { f with next := f.next + 1 } else .idle)
    match s1.fabric.colls.find? fun c => c.kind == 0 && c.group == f.group.toNat && c.number == f.coll.toNat with
    | some c => match (CollRun.giveBlock (s1, c) f.next (some w)).flushBlocks with
      | some z => some (z.1.settleColl z.2)
      | none => some (s1.collFault c 0x7C)
    | none => some s1
  | _ => none

/-! ### Reductions -/

/-- The wide sum of the staged contributions to a block (R78 to R82, R341). -/
def reduceBlock (t : EType) (n : Nat) (l : List (Option WireBlock)) : List (FVal × Bool) :=
  wideSum (l.filterMap fun x => x.map fun w => ⟨t, w.scale, w.codes, w.nonfin⟩) n

/-- Write the binary32 results of a block. -/
def State.wrB32s (s : State) (a : Nat) (l : List FVal) : State :=
  s.wrBytes a (l.flatMap fun v => leBytes (b32Bits v).toNat 4)

/-- An owner reduces one block that every member has contributed to or skipped (R341). -/
def execBlockReduce (group : BitVec 8) (coll : BitVec 32) (block : Nat) (s : State) :
    Host.Outcome State Fault Refusal :=
  match s.fabric.colls.find? fun c => c.kind == 0 && c.group == group.toNat && c.number == coll.toNat with
  | none => .next s
  | some c =>
    let mine := c.contrib.filter fun x => x.block == block
    if c.reduced.contains block || !(s.ownBlocks c).contains block || mine.length != c.n then .next s
    else
      let t := s.collType c
      let sh := s.collShards c
      let u0 := sh.firstUnit (c.pos c.own)
      let a := Rec.dst c.record + 4 * (block * sh.bs - 512 * u0)
      let empty := mine.all fun x => x.given.isNone
      let zeros := List.replicate sh.bs FVal.zero
      let r := reduceBlock t sh.bs (mine.map (·.given))
      let upd := Rec.upd c.record
      let s1 := if empty then (if upd then s else s.wrB32s a zeros) else s.wrB32s a (r.map (·.1))
      let s2 := if !empty && r.any (·.2) then s1.raiseNf else s1
      let c1 := { c with contrib := c.contrib.filter fun x => x.block != block, reduced := c.reduced ++ [block],
                         empties := if empty then c.empties ++ [block] else c.empties }
      let u := block * sh.bs / 512
      let ub := sh.unitBlocks u
      let (s3, c2) :=
        if upd && ub.all c1.reduced.contains && !(ub.all c1.empties.contains) then
          let s3 := (ub.filter c1.empties.contains).foldl (fun s b =>
            s.wrB32s (Rec.dst c.record + 4 * (b * sh.bs - 512 * u0)) zeros) s2
          (s3.requestUnits none none (Rec.ugrp c.record) [(u - u0, Rec.dst c.record + 2048 * (u - u0))],
            { c1 with handed := c1.handed ++ [u] })
        else (s2, c1)
      let before := CollRun.lowest (s, c)
      let y := if CollRun.lowest (s3, c2) = before then some (s3, c2) else (CollRun.grantBlocks (s3, c2)).flushBlocks
      match y with
      | some y => .next (y.1.settleColl y.2)
      | none => .next (s3.collFault c2 0x7C)

/-- An owner reduces one row that every member has passed, after every lower row (R345). (DEDUCED, log 70). -/
def execRowReduce (group : BitVec 8) (coll : BitVec 32) (row : Nat) (s : State) : Host.Outcome State Fault Refusal :=
  match s.fabric.colls.find? fun c => c.kind == 4 && c.group == group.toNat && c.number == coll.toNat with
  | none => .next s
  | some c =>
    let r := c.record
    let mine := c.rowsIn.filter fun x => x.row == row
    if mine.isEmpty || c.rowsIn.any (fun x => decide (x.row < row)) || !(c.members.all fun m => CollRun.passed c row m) then
      .next s
    else
      let a := Rec.aux2 r + 4 * Rec.rowp r * c.rowsOut.length
      let b32 : EType := .plain (.flt Fmt.b32) 32
      let cs (k : Nat) : List Contribution := mine.map fun x => ⟨b32, 0, (x.codes.drop (32 * k)).take 32, false⟩
      let l := (List.range ((Rec.rowLen r + 31) / 32)).flatMap fun k => wideSum (cs k) (min 32 (Rec.rowLen r - 32 * k))
      let s1 := s.wrB32s a (l.map (·.1))
      let s2 := if l.any (·.2) then s1.raiseNf else s1
      let r0 := firstRow c.n (Rec.ntab r) (c.pos c.own)
      let done := mine.map (·.src)
      let c1 := { c with
        rowsIn := c.rowsIn.filter fun x => x.row != row, rowsOut := c.rowsOut ++ [row - r0],
        rowsDone := done.foldl (fun l m => setCount l m (countOf l m + 1)) c.rowsDone }
      let z := CollRun.finishRows (CollRun.flushRows (done.foldl CollRun.grantRows (s2, c1)))
      .next (z.1.settleColl z.2)

/-! ### Frames from the fabric -/

/-- A DATA frame of a collective (R333, R334). -/
def execTransportData (f : Frame) (s : State) : Host.Outcome State Fault Refusal :=
  s.whenPowered fun s => if f.kind ≠ 1 ∨ f.via then .next s else .next (s.deliver f)

/-- GRANT: its bound in ARG (R340, R345, R348). -/
def execGrant (src : Origin) (group : BitVec 8) (coll : BitVec 32) (bound : BitVec 64) (s : State) :
    Host.Outcome State Fault Refusal := s.whenPowered fun s => .next (s.deliver (grantOf src group coll bound))

/-- SKIP: the blocks from ARG, as many as its payload counts, are absent from the sender (R339). -/
def execSkipMessage (src : Origin) (group : BitVec 8) (coll : BitVec 32) (b0 nb : BitVec 64) (s : State) :
    Host.Outcome State Fault Refusal := s.whenPowered fun s => .next (s.deliver (skipOf src group coll b0 nb))

/-- END: the sender has no more rows for this owner (R345). -/
def execEnd (src : Origin) (group : BitVec 8) (coll : BitVec 32) (s : State) : Host.Outcome State Fault Refusal :=
  s.whenPowered fun s => .next (s.deliver (endOf src group coll))

namespace State

/-- An acknowledgement reaches the collective whose frame it covers (R337). (DEDUCED, log 65). -/
def collAcked (s : State) (f : Frame) : State :=
  let live := match s.job with
    | some j => j.jobtag == f.tag
    | none => false
  if !live then s
  else
    match s.fabric.colls.find? fun c => c.group == f.group.toNat && c.number == f.coll.toNat &&
        c.unacked.contains (f.dst.toNat, f.fidx.toNat) && (!c.isPair || (c.kind == 6) == (f.kind == 1)) with
    | some c => s.settleColl { c with unacked := c.unacked.erase (f.dst.toNat, f.fidx.toNat) }
    | none => s

end State

end Sys2Proof.Machine
end

