-- ==== Sys2Proof/Machine/LayerFormats.lean ====
section
/-!
DEFINITION. Layer formats: the table and the policy image, their launch check, first use, and the evaluation at commit
(R129 to R137).
-/
namespace Sys2Proof.Machine

/-- An entry or a format word as a number. -/
def wordBits (w lo n : Nat) : Nat := w / 2 ^ lo % 2 ^ n

/-- The WIRE and ACT fields of a format word or an entry are legal (R134). -/
def formatsLegal (ft : FormatTable) (w : Nat) : Bool :=
  let wire := BitVec.ofNat 5 (wordBits w 0 5)
  let act := BitVec.ofNat 5 (wordBits w 8 5)
  (match ft.resolve wire with
    | some t => floatType wire && (t.block == 0 || t.block == 16 || t.block == 32)
    | none => false) &&
  (match ft.resolve act with
    | some t => floatType act && t.block == 0
    | none => false) && wordBits w 7 1 == 0 && wordBits w 15 1 == 0

/-- A policy (R133): built in without an image. -/
structure Policy where
  nrules : Nat
  hold : Nat
  qfrac : Nat
  nfEn : Bool
  nohist : Nat
  nonfin : Nat
  rules : List Nat
  deriving DecidableEq, Repr

def bf16Word (span : Nat) : Nat := 0x0C + 0x0C * 2 ^ 8 + span * 2 ^ 16

def Policy.builtIn : Policy := ⟨1, 0, 0, false, bf16Word 0, 0, [bf16Word 255]⟩

/-- The record of policy n. -/
def policyRecord (img : Image) (n : Nat) : Image := (img.drop (0x10 + 128 * n)).take 128

def policyOf (img : Option Image) (n : Nat) : Policy := match img with
  | none => .builtIn
  | some img =>
    let r := policyRecord img n
    { nrules := Image.field r 0 1, hold := Image.field r 1 1, qfrac := Image.field r 2 2,
      nfEn := (Image.field r 4 1).testBit 0, nohist := Image.field r 0x10 8, nonfin := Image.field r 0x18 8,
      rules := (List.range 8).map fun i => Image.field r (0x20 + 8 * i) 8 }

def Policy.rule (p : Policy) (i : Nat) : Nat := p.rules.getD i 0
def spanMax (w : Nat) : Nat := wordBits w 16 8

/-- A format word of a policy image: legal fields, every other bit zero. -/
def wordLegal (ft : FormatTable) (w : Nat) (span : Bool) : Bool :=
  formatsLegal ft w && w / 2 ^ 24 == 0 && (span || spanMax w == 0)

/-- A defined policy is valid (R134). -/
def policyValid (ft : FormatTable) (img : Image) (n : Nat) : Bool :=
  let r := policyRecord img n
  let p := policyOf (some img) n
  decide (1 ≤ p.nrules) && decide (p.nrules ≤ 8) && decide (p.hold ≤ 15) && decide (Image.field r 4 1 < 2) &&
    Image.field r 5 11 == 0 && Image.field r 0x60 32 == 0 && wordLegal ft p.nohist false &&
    (if p.nfEn then wordLegal ft p.nonfin false else p.nonfin == 0) &&
    ((List.range 8).all fun i => if i < p.nrules then wordLegal ft (p.rule i) true else p.rule i == 0) &&
    ((List.range (p.nrules - 1)).all fun i => decide (spanMax (p.rule i) < spanMax (p.rule (i + 1)))) &&
    spanMax (p.rule (p.nrules - 1)) == 255

/-- The policy image is valid (R132, R134). -/
def policyImageValid (ft : FormatTable) (img : Image) : Bool :=
  Image.field img 0 4 == 0x31545046 && Image.field img 6 10 == 0 &&
    Image.field img 0x810 8 == (crc64 (img.take 0x810)).toNat &&
    (List.range 16).all fun n => !(Image.field img 4 2).testBit n || policyValid ft img n

/-- An entry is valid (R131, R134). -/
def entryOk (ft : FormatTable) (img : Option Image) (e : Nat) : Bool :=
  let n := wordBits e 16 4
  let defined := match img with
    | some img => (Image.field img 4 2).testBit n
    | none => n == 0
  formatsLegal ft e && wordBits e 31 1 == 0 && decide (wordBits e 24 5 ≤ 16) && defined &&
    decide (wordBits e 20 3 < (policyOf img n).nrules)

namespace State

def layerEntry (s : State) (base l : Nat) : Nat := s.rdNat (base + 0x10 + 8 * l) 8

/-- The layer format table is valid (R130, R134). -/
def layerTableValid (s : State) (ft : FormatTable) (img : Option Image) (base : Nat) : Bool :=
  let n := s.rdNat (base + 4) 2
  s.inDdr base 0x18 && s.rdNat base 4 == 0x3154464C && decide (1 ≤ n) && decide (n ≤ 4096) && s.rdNat (base + 6) 10 == 0 &&
    s.inDdr base (0x18 + 8 * n) && s.rdNat (base + 0x10 + 8 * n) 8 == (crc64 (s.rdBytes base (0x10 + 8 * n))).toNat &&
    (List.range n).all fun l => entryOk ft img (s.layerEntry base l)

/-- Write entries and recompute CHECK (R130). -/
def setLayerTable (s : State) (base : Nat) (entries : List Nat) : State :=
  let n := entries.length
  let s := s.wrBytes (base + 0x10) (entries.flatMap fun e => leBytes e 8)
  s.wrNat (base + 0x10 + 8 * n) 8 (crc64 (s.rdBytes base (0x10 + 8 * n))).toNat

end State

/-- Put a format word's WIRE, WRND, ACT and ARND into an entry. -/
def withFormats (e w : Nat) : Nat := e / 2 ^ 16 * 2 ^ 16 + w % 2 ^ 16

/-- Replace a field of an entry. -/
def setBits (e lo n v : Nat) : Nat := e - wordBits e lo n * 2 ^ lo + v % 2 ^ n * 2 ^ lo

/-- First use (R135). -/
def entryAtLaunch (img : Option Image) (e : Nat) : Nat :=
  if e.testBit 23 || e.testBit 29 then e
  else
    let p := policyOf img (wordBits e 16 4)
    setBits (setBits (setBits (withFormats e p.nohist) 20 3 (p.nrules - 1)) 24 5 0) 30 1 0

/-! ### Evaluation (R136) -/

/-- The counts and the base of a merged statistics record. -/
structure Merged where
  hist : List Nat
  maxabs : W64
  zeros : Nat
  nonfin : Nat
  count : Nat
  hbase : Int
  binw : Nat
  deriving DecidableEq, Repr

/-- The span of a record; none for a record without one. -/
def Merged.span (m : Merged) (qfrac : Nat) : Option Nat :=
  let nz : Int := (m.count : Int) - m.zeros - m.nonfin
  let a := ofB64 m.maxabs
  if nz = 0 ∨ a.isZero then none
  else
    let q : Int := nz * qfrac / 65536
    let cum (b : Nat) : Int := ((m.hist.take (b + 1)).foldl (· + ·) 0 : Nat)
    match (List.range 16).find? fun b => decide (q < cum b) with
    | none => some 255
    | some 0 => some 255
    | some b => some (max 0 (min 255 (a.topExp - (m.hbase + ((b - 1) * 2 ^ m.binw : Nat))))).toNat

/-- take(j) of R136. -/
def takeRule (p : Policy) (step : W32) (e j : Nat) : Nat :=
  let w := p.rule j
  let changed := e % 2 ^ 16 != w % 2 ^ 16
  let e1 := setBits (setBits (setBits (withFormats e w) 20 3 j) 24 5 0) 30 1 0
  if changed then setBits e1 32 32 step.toNat else e1

/-- One entry at a commit (R136). -/
def evalEntry (p : Policy) (step : W32) (vetoed : Bool) (x w : Merged) (e : Nat) : Nat :=
  if e.testBit 29 then e
  else if 0 < x.nonfin + w.nonfin ∧ p.nfEn then
    let e1 := setBits (setBits (setBits (withFormats e p.nonfin) 20 3 (p.nrules - 1)) 24 5 0) 30 1 1
    setBits (setBits e1 23 1 1) 32 32 step.toNat
  else if vetoed then e
  else
    let s := match x.span p.qfrac, w.span p.qfrac with
      | some a, some b => some (max a b)
      | some a, none => some a
      | none, some b => some b
      | none, none => none
    match s with
    | none => e
    | some s =>
      let j := ((List.range p.nrules).find? fun i => decide (s ≤ spanMax (p.rule i))).getD (p.nrules - 1)
      let r := wordBits e 20 3
      let e1 :=
        if !e.testBit 23 || decide (r ≤ j) then takeRule p step e j
        else
          let h := wordBits e 24 5 + 1
          if p.hold < h then takeRule p step e j else setBits e 24 5 h
      setBits e1 23 1 1

end Sys2Proof.Machine
end

