-- ==== Sys2Proof/Machine/Curves.lean ====
section
/-!
DEFINITION. Curve-set images: validity at launch and evaluation, and the built-in curves (R98, R103 to R106).
-/
namespace Sys2Proof.Machine

/-- Whether user curve table n is defined in an image. -/
def curveDefined (img : Image) (n : Nat) : Bool := (Image.field img 4 2).testBit n

/-- The 4,160 bytes of user curve table n. -/
def curveTable (img : Image) (n : Nat) : Image := (img.drop (0x10 + 0x1040 * n)).take 0x1040

/-- EMIN, NBIN, SUB and the two flags of a table (R104). -/
structure CurveHead where
  emin : Int
  nbin : Nat
  sub : Nat
  split : Bool
  odd : Bool
  deriving DecidableEq, Repr

def curveHead (t : Image) : CurveHead :=
  ⟨Image.sfield t 4 1, Image.field t 5 1, Image.field t 6 1, (Image.field t 7 1).testBit 0,
    (Image.field t 7 1).testBit 1⟩

/-- The binary32 coefficient at a byte offset. -/
def curveCoef (t : Image) (off : Nat) : FVal := Fmt.b32.decode (Image.field t off 4)

/-- The validity of a defined table (R106). -/
def curveTableValid (t : Image) : Bool :=
  let h := curveHead t
  let segs := h.nbin * 2 ^ h.sub
  let used (i : Nat) : Bool := if h.split then decide (i % 128 < segs) else decide (i < segs)
  Image.field t 0 4 == 0x31565243 && decide (-126 ≤ h.emin) && decide (1 ≤ h.nbin) && decide (h.nbin ≤ 128) &&
    decide (h.emin + h.nbin ≤ 128) && decide (h.sub ≤ 7) && Image.field t 7 1 / 4 == 0 &&
    !(h.split && h.odd) && decide (segs ≤ if h.split then 128 else 256) &&
    Image.field t 0x38 8 == 0 &&
    (h.split || (Image.field t 0x18 16 == 0 && Image.field t 0x30 8 == 0)) &&
    ((List.range 12).all fun i => (curveCoef t (8 + 4 * i)).isFinite) &&
    (List.range 256).all fun i =>
      if used i then (List.range 4).all fun k => (curveCoef t (0x40 + 16 * i + 4 * k)).isFinite
      else Image.field t (0x40 + 16 * i) 16 == 0

/-- The launch check of a curve-set image (R106). -/
def curveSetValid (img : Image) : Bool :=
  Image.field img 0 4 == 0x54535643 && Image.field img 6 10 == 0 &&
    Image.field img 0x10410 8 == (crc64 (img.take 0x10410)).toNat &&
    (List.range 16).all fun n => !curveDefined img n || curveTableValid (curveTable img n)

/-- c0 + x(c1 + x(c2 + x c3)), binary64 RNE at each operation. -/
def cubic (t : Image) (off : Nat) (x : FVal) : FVal :=
  let c (k : Nat) : FVal := curveCoef t (off + 4 * k)
  let fma (a b : FVal) : FVal := rne64 (FVal.add a (rne64 (FVal.mul x b)))
  fma (c 0) (fma (c 1) (fma (c 2) (c 3)))

/-- The value of a user curve table (R105). -/
def curveEval (t : Image) (v : FVal) : FVal :=
  let h := curveHead t
  let neg := v.signBit
  let half := h.split && neg
  let res : FVal := match v.abs with
    | .nan => .nan
    | .inf _ =>
      let off := if half then 0x30 else 0x28
      let b := curveCoef t (off + 4)
      if b.isZero then curveCoef t off else .inf b.signBit
    | .fin n m e =>
      let a := FVal.fin n m e
      let k := a.topExp
      if m = 0 ∨ k < h.emin then cubic t (if half then 0x18 else 0x08) a
      else if k < h.emin + h.nbin then
        let scaled := FVal.mul a (.fin false 1 (h.sub - k))
        let whole : Nat := (quantise .rtz 0 m 1 (e + h.sub - k) 0).1
        let i := ((k - h.emin).toNat * 2 ^ h.sub + whole % 2 ^ h.sub) + (if half then 128 else 0)
        let x := FVal.sub scaled (.fin false whole 0)
        cubic t (0x40 + 16 * i) x
      else
        let off := if half then 0x30 else 0x28
        rne64 (FVal.add (curveCoef t off) (rne64 (FVal.mul (curveCoef t (off + 4)) a)))
  if !h.split && h.odd && neg then res.neg else res

/-- Whether a CURVE code is usable with the tables of the job (R98, R106). -/
def curveLegal (curves : Option Image) (code : BitVec 5) : Bool :=
  if code.toNat ≤ 0x0B then true
  else if code.toNat < 0x10 then false
  else match curves with
    | some img => curveDefined img (code.toNat - 16)
    | none => false

/-- The results of R98 that its table or its words state exactly; none where only the bound is stated. (DESIGN CHOICE, log 5). -/
def curveExact (code : Nat) (v : FVal) : Option FVal :=
  match v with
  | .nan => some .nan
  | .inf neg =>
    if !neg then
      if code = 0 ∨ code = 1 ∨ code = 3 ∨ code = 9 ∨ code = 10 then some (.inf false)
      else if code = 6 ∨ code = 8 then some FVal.zero
      else some FVal.one
    else if code = 0 then some (.inf true)
    else if code = 5 then some (.fin true 1 0)
    else some FVal.zero
  | .fin neg m e =>
    if code = 0 then some (.fin neg m e)
    else if code = 9 ∧ expOverflows v then some (.inf false)
    else if code = 0x0A then some (if neg || m == 0 then FVal.zero else .fin neg m e)
    else if code = 0x0B then some (if neg || m == 0 then FVal.zero else FVal.one)
    else none

/-- f(v) for a legal CURVE code (R98, R105): of a built-in curve a binary64 value within the bound of R98, which one is free
(DESIGN CHOICE, log 5). -/
def curveFn (curves : Option Image) (code : BitVec 5) (v : FVal) : FVal :=
  if code.toNat < 0x10 then
    match curveExact code.toNat v with
    | some x => x
    | none => boundedResult Fmt.b64 (curveReal code.toNat v) (ofB64 (Config.curve code (b64Bits v)))
  else match curves with
    | some img => if v.isNaN then .nan else curveEval (curveTable img (code.toNat - 16)) v
    | none => .nan

end Sys2Proof.Machine
end

