-- ==== Sys2Proof/Machine/Flags.lean ====
section
/-!
DEFINITION. The conditions and the integer functions of the scalar instructions (R155, BR), and the selection of one
operand order (R102, R187). The part has no flag register: conditions are computed from registers.
-/
namespace Sys2Proof.Machine

/-- A function of ALU and ALUI; none for an unassigned code (R155). -/
def aluFn (fn : BitVec 5) (a b : W64) : Option W64 :=
  match fn.toNat with
  | 0 => some (a + b)
  | 1 => some (a - b)
  | 2 => some (a &&& b)
  | 3 => some (a ||| b)
  | 4 => some (a ^^^ b)
  | 5 => some (a <<< (b.toNat % 64))
  | 6 => some (a >>> (b.toNat % 64))
  | 7 => some (a.sshiftRight (b.toNat % 64))
  | 8 => some (a * b)
  | 9 => some (BitVec.ofNat 64 (a.toNat * b.toNat / 2 ^ 64))
  | 10 => some (if a.slt b then a else b)
  | 11 => some (if a.slt b then b else a)
  | 12 => some (if a.ult b then a else b)
  | 13 => some (if a.ult b then b else a)
  | 14 => some (if a.slt b then 1 else 0)
  | 15 => some (if a.ult b then 1 else 0)
  | _ => none

/-- Whether a function code shifts (R155). -/
def aluIsShift (fn : BitVec 5) : Bool := fn == 5 || fn == 6 || fn == 7

/-- The condition of BR. -/
def brCond (cond : BitVec 3) (a b : W64) : Bool :=
  match cond.toNat with
  | 0 => a == b
  | 1 => a != b
  | 2 => a.slt b
  | 3 => !a.slt b
  | 4 => a.ult b
  | 5 => !a.ult b
  | 6 => a.truncate 32 == 0xFFFFFFFF#32
  | _ => a.truncate 32 != 0xFFFFFFFF#32

end Sys2Proof.Machine
end

