-- ==== Sys2Proof/Machine/Seq.lean ====
section
/-!
DEFINITION. The sequencer's instructions: scalar, control, tallies and signals, work lists and marks (R151 to R170,
R462).
-/
namespace Sys2Proof.Machine

/-! ### What FENCE, HALT and rel = 1 wait for (R150, R158) -/

/-- Work of the queue that bit k of qmask selects, issued and not completed. (DESIGN CHOICE, log 12; DEDUCED, log 36). -/
def Tile.queueBusy (t : Tile) (k : Nat) : Bool :=
  match k with
  | 0 => !t.statMerges.isEmpty
  | 1 => false
  | 2 => false
  | 3 => t.rslots.toList.any (·.isSome)
  | 4 => !t.portWork.isEmpty || t.waiting.any (·.port)
  | _ => !t.claims.isEmpty || !t.signals.isEmpty || t.waiting.any fun w => !w.port

/-- Any earlier instruction not completed. -/
def Tile.anyBusy (t : Tile) : Bool := (List.range 6).any t.queueBusy

/-- Any instruction issued before number `n` not completed, signals aside. -/
def Tile.busyBefore (t : Tile) (n : Nat) : Bool :=
  (t.statMerges.any fun m => decide (m.issueNo < n)) || (t.portWork.any fun m => decide (m < n)) ||
  (t.claims.any fun c => decide (c.claimAt < n)) || (t.waiting.any fun w => decide (w.issueNo < n)) ||
  (t.rslots.toList.any fun r => match r with
    | some x => decide (x.armedAt < n)
    | none => false)

/-- Any instruction up to number `n` not completed, signals included (what rel = 1 waits for, R158). -/
def Tile.busyUpTo (t : Tile) (n : Nat) : Bool := t.busyBefore (n + 1) || t.signals.any fun g => decide (g.issueNo ≤ n)

/-! ### Scalar instructions -/

/-- An instruction of the sequencer that only writes s[sd]. -/
def regOp (s : State) (p : TileId) (word : W64) (sd : BitVec 5) (reads : List (BitVec 5)) (checks : List Check)
    (v : Tile → W64) : TileOp :=
  let t := s.tile p
  TileOp.mk p word 8 (sd :: reads) checks false false fun s => s.thenTile p fun u => u.setReg sd (v t)

def opNop (p : TileId) (rsv : BitVec 58) (_s : State) : TileOp :=
  TileOp.mk p (Layout.nop rsv) 8 [] [chkRsv (rsv != 0)] false false id

def execNop (p : TileId) (rsv : BitVec 58) (s : State) :
    Host.Outcome State Fault Refusal := s.run (opNop p rsv s)

/-- R155. -/
def opAlu (p : TileId) (sd sa sb fn : BitVec 5) (rsv : BitVec 38) (s : State) : TileOp :=
  regOp s p (Layout.alu sd sa sb fn rsv) sd [sa, sb] [chkSel (decide (16 ≤ fn.toNat)), chkRsv (rsv != 0)]
    fun t => (aluFn fn (t.reg sa) (t.reg sb)).getD 0

def execAlu (p : TileId) (sd sa sb fn : BitVec 5) (rsv : BitVec 38) (s : State) :
    Host.Outcome State Fault Refusal := s.run (opAlu p sd sa sb fn rsv s)

/-- R155: the shift immediate must be 0 to 63, otherwise cause 0x0B. -/
def opAlui (p : TileId) (sd sa fn : BitVec 5) (rsv : BitVec 11) (imm : BitVec 32) (s : State) : TileOp :=
  regOp s p (Layout.alui sd sa fn rsv imm) sd [sa]
    [chkSel (decide (16 ≤ fn.toNat)), chkRsv (rsv != 0),
      { bad := aluIsShift fn && decide (64 ≤ imm.toNat), cause := 0x0B }]
    fun t => (aluFn fn (t.reg sa) (sext imm)).getD 0

def execAlui (p : TileId) (sd sa fn : BitVec 5) (rsv : BitVec 11) (imm : BitVec 32) (s : State) :
    Host.Outcome State Fault Refusal := s.run (opAlui p sd sa fn rsv imm s)

def opLi (p : TileId) (sd : BitVec 5) (pos : BitVec 2) (rsv : BitVec 19) (imm : BitVec 32) (s : State) : TileOp :=
  regOp s p (Layout.li sd pos rsv imm) sd [] [chkSel (decide (2 ≤ pos.toNat)), chkRsv (rsv != 0)]
    fun t => if pos = 0 then sext imm else imm ++ (t.reg sd).truncate 32

def execLi (p : TileId) (sd : BitVec 5) (pos : BitVec 2) (rsv : BitVec 19) (imm : BitVec 32) (s : State) :
    Host.Outcome State Fault Refusal := s.run (opLi p sd pos rsv imm s)

/-- R156. -/
def opLd (p : TileId) (sd sa : BitVec 5) (size : BitVec 2) (sx sp : Bool) (rsv : BitVec 12) (off : BitVec 32)
    (s : State) : TileOp :=
  let t := s.tile p
  let n := 2 ^ size.toNat
  let addr := ldStAddr s p sp (t.reg sa) off size.toNat
  (TileOp.mk p (Layout.ld sd sa size sx sp rsv off) 8 [sd, sa]
    [chkRsv (rsv != 0), { bad := addr.isNone, cause := 0x03 }] false false fun s =>
      let a := addr.getD 0
      let v := BitVec.ofNat (8 * n) (s.rdNat a n)
      (s.thenTile p fun u => u.setReg sd (if sx then v.signExtend 64 else v.zeroExtend 64)).readByTile p
        ((List.range n).map (a + ·))).inSmem (.ld p sd sa size sx sp rsv off) (some sd) t.smemStalled

def execLd (p : TileId) (sd sa : BitVec 5) (size : BitVec 2) (sx sp : Bool) (rsv : BitVec 12) (off : BitVec 32)
    (s : State) :
    Host.Outcome State Fault Refusal := s.run (opLd p sd sa size sx sp rsv off s)

/-- R156. ST is write-class (R166). -/
def opSt (p : TileId) (ss sa : BitVec 5) (size : BitVec 2) (rsv1 : BitVec 1) (sp : Bool) (rsv : BitVec 12)
    (off : BitVec 32) (s : State) : TileOp :=
  let t := s.tile p
  let n := 2 ^ size.toNat
  let addr := ldStAddr s p sp (t.reg sa) off size.toNat
  (TileOp.mk p (Layout.st ss sa size rsv1 sp rsv off) 8 [ss, sa]
    [chkRsv (rsv1 != 0 || rsv != 0), { bad := addr.isNone, cause := 0x03 }] false true fun s =>
      s.storeNat (addr.getD 0) n (t.reg ss).toNat).inSmem (.st p ss sa size rsv1 sp rsv off) none t.smemStalled

def execSt (p : TileId) (ss sa : BitVec 5) (size : BitVec 2) (rsv1 : BitVec 1) (sp : Bool) (rsv : BitVec 12)
    (off : BitVec 32) (s : State) :
    Host.Outcome State Fault Refusal := s.run (opSt p ss sa size rsv1 sp rsv off s)

def opBr (p : TileId) (sa sb : BitVec 5) (cond : BitVec 3) (rsv : BitVec 13) (off : BitVec 32) (s : State) : TileOp :=
  let t := s.tile p
  TileOp.mk p (Layout.br sa sb cond rsv off) 8 [sa, sb]
    [chkRsv (rsv != 0 || (decide (6 ≤ cond.toNat) && sb != 0))] false false fun s =>
      s.thenTile p fun u => if brCond cond (t.reg sa) (t.reg sb) then { u with pc := pcRel t.pc off } else u

def execBr (p : TileId) (sa sb : BitVec 5) (cond : BitVec 3) (rsv : BitVec 13) (off : BitVec 32) (s : State) :
    Host.Outcome State Fault Refusal := s.run (opBr p sa sb cond rsv off s)

def opJal (p : TileId) (sd : BitVec 5) (rsv : BitVec 21) (off : BitVec 32) (s : State) : TileOp :=
  let t := s.tile p
  TileOp.mk p (Layout.jal sd rsv off) 8 [sd] [chkRsv (rsv != 0)] false false fun s =>
    s.thenTile p fun u => { u.setReg sd (t.pc + 8) with pc := pcRel t.pc off }

def execJal (p : TileId) (sd : BitVec 5) (rsv : BitVec 21) (off : BitVec 32) (s : State) :
    Host.Outcome State Fault Refusal := s.run (opJal p sd rsv off s)

def opJr (p : TileId) (sd sa : BitVec 5) (rsv : BitVec 48) (s : State) : TileOp :=
  let t := s.tile p
  TileOp.mk p (Layout.jr sd sa rsv) 8 [sd, sa] [chkRsv (rsv != 0)] false false fun s =>
    s.thenTile p fun u => { u.setReg sd (t.pc + 8) with pc := t.reg sa }

def execJr (p : TileId) (sd sa : BitVec 5) (rsv : BitVec 48) (s : State) :
    Host.Outcome State Fault Refusal := s.run (opJr p sd sa rsv s)

/-- R157. Selector 10, the array-clock cycles, is a free value (log 6). -/
def opGetv (p : TileId) (sd sel : BitVec 5) (rsv : BitVec 48) (s : State) : TileOp :=
  let v : Nat := match s.job with
    | none => 0
    | some j => match sel.toNat with
      | 0 => s.logicalOf p
      | 1 => p.1
      | 2 => s.l2p.length
      | 3 => j.first
      | 4 => j.count
      | 5 => j.param
      | 6 => j.user.toNat
      | 7 => j.userLen.toNat
      | 8 => j.jobtag.toNat
      | _ => j.seq.toNat
  TileOp.mk p (Layout.getv sd sel rsv) 8 [sd] [chkSel (decide (11 ≤ sel.toNat)), chkRsv (rsv != 0)] false false
    fun s =>
      if sel = 10 then
        let f := s.takeFree
        f.2.thenTile p fun u => u.setReg sd f.1
      else s.thenTile p fun u => u.setReg sd (BitVec.ofNat 64 v)

def execGetv (p : TileId) (sd sel : BitVec 5) (rsv : BitVec 48) (s : State) :
    Host.Outcome State Fault Refusal := s.run (opGetv p sd sel rsv s)

/-- FENCE holds issue until the selected queues have completed (R150). (DEDUCED, log 4). -/
def opFence (p : TileId) (qmask : BitVec 6) (rsv : BitVec 52) (s : State) : TileOp :=
  let t := s.tile p
  TileOp.mk p (Layout.fence qmask rsv) 8 [] [chkRsv (rsv != 0)]
    ((List.range 6).any fun k => qmask.getLsbD k && t.queueBusy k) false id

def execFence (p : TileId) (qmask : BitVec 6) (rsv : BitVec 52) (s : State) :
    Host.Outcome State Fault Refusal := s.run (opFence p qmask rsv s)

/-- HALT waits for every earlier instruction, then the tile is HALTED; cause 0x09 with an item held. (DEDUCED, log 4). -/
def opHalt (p : TileId) (rsv : BitVec 58) (s : State) : TileOp :=
  let t := s.tile p
  TileOp.mk p (Layout.halt rsv) 8 [] [chkRsv (rsv != 0), { bad := !t.held.isEmpty, cause := 0x09 }] t.anyBusy true
    fun s => s.thenTile p fun u => { u with state := .halted }

def execHalt (p : TileId) (rsv : BitVec 58) (s : State) :
    Host.Outcome State Fault Refusal := s.run (opHalt p rsv s)

def opLli (p : TileId) (sd : BitVec 5) (rel : Bool) (rsv : BitVec 14) (value : BitVec 32) (imm : BitVec 64)
    (s : State) : TileOp :=
  let t := s.tile p
  TileOp.mk p (Layout.lli sd rel rsv value) 16 [sd]
    [chkRsv (rsv != 0 || rel || value != 0), { bad := !s.pcLegal t.pc 16, cause := 0x04 }] false false fun s =>
      s.thenTile p fun u => u.setReg sd imm

def execLli (p : TileId) (sd : BitVec 5) (rel : Bool) (rsv : BitVec 14) (value : BitVec 32) (imm : BitVec 64)
    (s : State) :
    Host.Outcome State Fault Refusal := s.run (opLli p sd rel rsv value imm s)

/-- LJMP: a bad target faults when the sequencer would issue it (R153, R462). (DEDUCED, log 35). -/
def opLjmp (p : TileId) (sd : BitVec 5) (rel : Bool) (rsv : BitVec 14) (value : BitVec 32) (imm : BitVec 64)
    (s : State) : TileOp :=
  let t := s.tile p
  TileOp.mk p (Layout.ljmp sd rel rsv value) 16 [sd]
    [chkRsv (rsv != 0), { bad := !s.pcLegal t.pc 16, cause := 0x04 }] false false fun s =>
      s.thenTile p fun u => { u.setReg sd (t.pc + 16) with pc := imm }

def execLjmp (p : TileId) (sd : BitVec 5) (rel : Bool) (rsv : BitVec 14) (value : BitVec 32) (imm : BitVec 64)
    (s : State) :
    Host.Outcome State Fault Refusal := s.run (opLjmp p sd rel rsv value imm s)

/-! ### Tallies and signals -/

/-- TSET is write-class (R166) and sets a local tally. -/
def opTset (p : TileId) (t : BitVec 6) (rsv : BitVec 20) (value : BitVec 32) (_s : State) : TileOp :=
  TileOp.mk p (Layout.tset t rsv value) 8 [] [chkRsv (rsv != 0)] false true fun s =>
    s.thenTile p fun u => u.setTally t value

def execTset (p : TileId) (t : BitVec 6) (rsv : BitVec 20) (value : BitVec 32) (s : State) :
    Host.Outcome State Fault Refusal := s.run (opTset p t rsv value s)

/-- The target of a SIGNAL, or none for cause 0x05 (R158). (DEDUCED, log 35). -/
def signalTarget (s : State) (p : TileId) (kind : BitVec 2) (sa : BitVec 5) (v : W64) (t : BitVec 6) :
    Option SignalTarget :=
  match kind.toNat with
  | 0 => if sa = 0 then some (.tally p t) else none
  | 1 =>
    if v.toNat < 2048 then
      match s.l2p[v.toNat]? with
      | some q => if s.inSet q then some (.tally q t) else none
      | none => none
    else none
  | 2 => if v.toNat % 8 = 0 ∧ s.inDdr v.toNat 8 then some (.memory v.toNat) else none
  | _ => some (.host t)

/-- A signal leaves at issue with rel = 0; with rel = 1 it waits for SIGNAL_RELEASE (R158). -/
def State.pushSignal (s : State) (p : TileId) (target : SignalTarget) (value : W32) (rel : Bool) : State :=
  s.thenTile p fun u => { u with signals := u.signals ++ [⟨target, value, !rel, u.issueNo⟩] }

def opSignal (p : TileId) (kind : BitVec 2) (rel : Bool) (sa : BitVec 5) (t : BitVec 6) (rsv : BitVec 12)
    (value : BitVec 32) (s : State) : TileOp :=
  let target := signalTarget s p kind sa ((s.tile p).reg sa) t
  TileOp.mk p (Layout.signal kind rel sa t rsv value) 8 [sa]
    [chkRsv (rsv != 0), { bad := target.isNone, cause := 0x05 }] (s.tile p).smemFull true fun s =>
      s.pushSignal p (target.getD (.host t)) value rel

def execSignal (p : TileId) (kind : BitVec 2) (rel : Bool) (sa : BitVec 5) (t : BitVec 6) (rsv : BitVec 12)
    (value : BitVec 32) (s : State) :
    Host.Outcome State Fault Refusal := s.run (opSignal p kind rel sa t rsv value s)

def opLsignal (p : TileId) (sd : BitVec 5) (rel : Bool) (rsv : BitVec 14) (value : BitVec 32) (imm : BitVec 64)
    (s : State) : TileOp :=
  let t := s.tile p
  TileOp.mk p (Layout.lsignal sd rel rsv value) 16 []
    [chkRsv (rsv != 0 || sd != 0), { bad := !s.pcLegal t.pc 16, cause := 0x04 },
      { bad := imm.toNat % 8 != 0 || !s.inDdr imm.toNat 8, cause := 0x05 }] t.smemFull true fun s =>
      s.pushSignal p (.memory imm.toNat) value rel

def execLsignal (p : TileId) (sd : BitVec 5) (rel : Bool) (rsv : BitVec 14) (value : BitVec 32) (imm : BitVec 64)
    (s : State) :
    Host.Outcome State Fault Refusal := s.run (opLsignal p sd rel rsv value imm s)

/-- Whether every instruction issued before a signal has completed; a signal issued before it has completed once it is counted. -/
def Tile.mayLeave (t : Tile) (g : OutSignal) : Bool :=
  !t.busyBefore g.issueNo && t.signals.all fun x => decide (g.issueNo ≤ x.issueNo)

/-- A signal is sent: behind those sent before it, but for a memory addition, which keeps its place among them (R40, R150). -/
def Tile.sendSignal (t : Tile) (g : OutSignal) : Tile :=
  let h := { g with sent := true }
  { t with signals := if g.target.isMemory then t.signals.map fun x => if x = g then h else x else t.signals.erase g ++ [h] }

/-- A waiting rel = 1 signal leaves once every instruction issued before it has completed (R158). -/
def execSignalRelease (p : TileId) (s : State) : Host.Outcome State Fault Refusal :=
  .next (s.modTile p fun t => match t.signals.find? fun g => !g.sent with
    | some g => if t.mayLeave g then t.sendSignal g else t
    | none => t)

/-- Take the signal of a tile that `which` accepts and that was sent first (R40); of memory additions, the first issued, once it is sent
(R150). -/
def Tile.takeSignal (t : Tile) (which : SignalTarget → Bool) : Option (OutSignal × Tile) :=
  match t.signals.find? fun g => which g.target && (g.sent || g.target.isMemory) with
  | some g => if g.sent then some (g, { t with signals := t.signals.erase g }) else none
  | none => none

/-- Whether an SMEM access issued before number `n` has not started. (DEDUCED, log 36). -/
def Tile.smemBefore (t : Tile) (n : Nat) : Bool := t.waiting.any fun w => !w.port && decide (w.issueNo < n)

/-- A tally addition arrives at its tile (R158). -/
def execTallyAdd (src dst : TileId) (s : State) : Host.Outcome State Fault Refusal :=
  match (s.tile src).takeSignal fun g => match g with
      | .tally q _ => q == dst
      | _ => false with
  | some (⟨.tally q k, v, _, _⟩, t) => .next ((s.setTile src t).addTally q k v)
  | _ => .next s

/-- A memory-counter addition reaches its atomic unit, after the tile's earlier claims have had their replies and its earlier SMEM
accesses are made (R150, R158, R263). (DEDUCED, log 36). -/
def execMemoryCounterAdd (src : TileId) (s : State) : Host.Outcome State Fault Refusal :=
  match (s.tile src).takeSignal SignalTarget.isMemory with
  | some (⟨.memory a, v, _, n⟩, t) =>
    if t.smemBefore n || t.claims.any fun c => decide (c.claimAt < n) then .next s
    else .next (((s.setTile src t).addProgCounter a v).readByModule ((List.range 8).map (a + ·)))
  | _ => .next s

/-- A host-tally addition reaches the host block (R147, R158). -/
def execHostTallyAdd (src : TileId) (s : State) : Host.Outcome State Fault Refusal :=
  match (s.tile src).takeSignal fun g => match g with
      | .host _ => true
      | _ => false with
  | some (⟨.host k, v, _, _⟩, t) => .next ((s.setTile src t).addHostTally k v)
  | _ => .next s

/-- The target of a WAITT: an immediate, or the low word of s[sa]. -/
def waitTarget (u : Tile) (sv : Bool) (sa : BitVec 5) (value : BitVec 32) : W32 :=
  if sv then (u.reg sa).truncate 32 else value

/-- WAITT as issued with its tally at the target. (DEDUCED, log 35, 37). -/
def opWaitt (p : TileId) (t : BitVec 6) (mk sv : Bool) (sa : BitVec 5) (rsv : BitVec 13) (value : BitVec 32)
    (_s : State) : TileOp :=
  TileOp.mk p (Layout.waitt t mk sv sa rsv value) 8 (if sv then [sa] else []) [chkRsv (rsv != 0 || (sv && value != 0))] false
    false fun s => s.thenTile p fun u => if mk then { u with markAt := u.issueNo } else u

/-- WAITT: satisfied at once, or STATE 2 until the tally reaches its target (R159). -/
def execWaitt (p : TileId) (t : BitVec 6) (mk sv : Bool) (sa : BitVec 5) (rsv : BitVec 13) (value : BitVec 32)
    (s : State) : Host.Outcome State Fault Refusal :=
  let u := s.tile p
  let x := opWaitt p t mk sv sa rsv value s
  let target := waitTarget u sv sa value
  if u.state = .issuing ∧ s.pcLegal u.pc 8 ∧ !(x.reads.any u.isPending) ∧ (x.checks.find? (·.bad)).isNone ∧
      !reached (u.tally t) target then
    .next (s.modTile p fun u =>
      { u with state := .inWaitt, waitT := t, waitTarget := target, waitMk := mk })
  else s.run x

/-! ### Work lists -/

def State.listEntry (s : State) (list : BitVec 12) : Option ListEntry :=
  match s.job with
  | some j => j.lists[list.toNat]?
  | none => none

/-- C and L of a counter word (R161). -/
def State.listC (s : State) (e : ListEntry) : Nat := s.rdNat e.ctr 4
def State.listL (s : State) (e : ListEntry) : Nat := s.rdNat (e.ctr + 4) 4
def State.setListC (s : State) (e : ListEntry) (c : Nat) : State := s.wrNat e.ctr 4 c
def State.setListL (s : State) (e : ListEntry) (l : Nat) : State := s.wrNat (e.ctr + 4) 4 l

/-- Items that the tile holds or may yet be granted (R163, cause 0x07). -/
def Tile.unentered (t : Tile) : Nat :=
  t.held.length + (t.claims.map fun c => if c.pair then 2 else 1).foldl (· + ·) 0

/-- CLAIM and CLAIM2 up to their arrival at the atomic unit (R163, R164). -/
def claimOp (s : State) (p : TileId) (word : W64) (pair : Bool) (sd sa : BitVec 5) (list : BitVec 12)
    (rsv : BitVec 1) (off : BitVec 32) : TileOp :=
  let t := s.tile p
  let n := if pair then 2 else 1
  let dest := (t.reg sa).toNat
  TileOp.mk p word 8 [sd, sa]
    [chkRsv (rsv != 0),
      { bad := match s.listEntry list with
          | some e => e.pair != pair
          | none => true, cause := 0x06 },
      { bad := decide (2 < t.unentered + n), cause := 0x07 },
      { bad := dest % 64 != 0 || decide (sramBytes < dest + 64 * n), cause := 0x0A }] t.smemFull false fun s =>
    s.thenTile p fun u =>
      { u with claims := u.claims ++ [⟨list, pair, sd, dest, pcRel t.pc off, u.issueNo, none⟩] }

def opClaim (p : TileId) (sd sa : BitVec 5) (list : BitVec 12) (rsv : BitVec 1) (off : BitVec 32) (s : State) : TileOp :=
  claimOp s p (Layout.claim sd sa list rsv off) false sd sa list rsv off

def execClaim (p : TileId) (sd sa : BitVec 5) (list : BitVec 12) (rsv : BitVec 1) (off : BitVec 32) (s : State) :
    Host.Outcome State Fault Refusal := s.run (opClaim p sd sa list rsv off s)

def opClaim2 (p : TileId) (sd sa : BitVec 5) (list : BitVec 12) (rsv : BitVec 1) (off : BitVec 32) (s : State) : TileOp :=
  claimOp s p (Layout.claim2 sd sa list rsv off) true sd sa list rsv off

def execClaim2 (p : TileId) (sd sa : BitVec 5) (list : BitVec 12) (rsv : BitVec 1) (off : BitVec 32) (s : State) :
    Host.Outcome State Fault Refusal := s.run (opClaim2 p sd sa list rsv off s)

/-- The grant of the atomic unit (R164): the indices granted, with C advanced. -/
def State.grant (s : State) (e : ListEntry) (pair : Bool) : List W32 × State :=
  let c := s.listC e
  let l := s.listL e
  let n := if c < l then (if pair ∧ c + 1 < l then 2 else 1) else 0
  ((List.range n).map fun i => BitVec.ofNat 32 (c + i), if n = 0 then s else s.setListC e (c + n))

/-- Claim number k of tile p arrives at its atomic unit; a tile's claims arrive in issue order, after its earlier memory
additions and accesses (R150, R164). (DEDUCED, log 36). -/
def execClaimArrival (p : TileId) (k : Nat) (s : State) : Host.Outcome State Fault Refusal :=
  let t := s.tile p
  match t.claims[k]? with
  | some c =>
    if c.granted.isNone ∧ (t.claims.take k).all (·.granted.isSome) ∧ !t.smemBefore c.claimAt ∧
        t.signals.all (fun g => !(g.target.isMemory && decide (g.issueNo < c.claimAt))) then
      match s.listEntry c.list with
      | some e =>
        let g := s.grant e c.pair
        .next (((g.2.touchAtomic e.ctr).modTile p fun u =>
          { u with claims := u.claims.set k { c with granted := some g.1 } }).readByModule
            ((List.range 8).map (e.ctr + ·)))
      | none => .next s
    else .next s
  | none => .next s

/-- s[sd] of a claim (R164): the first index below, the second above, all ones where nothing is granted. -/
def claimValue (g : List W32) : W64 := g.getD 1 0xFFFFFFFF ++ g.getD 0 0xFFFFFFFF

/-- The item record at `a` is as it was when its list was last armed: a record changed since gives an unpredictable copy
(R264). -/
def State.recordAsArmed (s : State) (list : BitVec 12) (a : Nat) : Bool :=
  match s.job with
  | some j => match j.armed.find? fun x => x.1 == list.toNat with
    | some x => (List.range 64).all fun i => s.peek (a + i) == Sparse.get memDefault x.2 (a + i)
    | none => true
  | none => true

/-- A list is armed: its records are prefetched from memory as it stands now (R264). -/
def State.noteArmed (s : State) (list : BitVec 12) : State :=
  match s.job with
  | some j => { s with job := some { j with armed := j.armed.map fun x => if x.1 == list.toNat then (x.1, s.mem) else x } }
  | none => s

/-- The reply of the tile's oldest claim: records are copied, then s[sd] is written (R164). SMEM accesses complete in
issue order (R150), so only claim 0 can be answered. (DEDUCED, log 36). (DESIGN CHOICE, log 103). -/
def execClaimReply (p : TileId) (k : Nat) (s : State) : Host.Outcome State Fault Refusal :=
  if k ≠ 0 then .next s
  else match (s.tile p).claims with
    | c :: rest =>
      match c.granted, s.listEntry c.list with
      | some g, some e =>
        let copy (s : State) (x : W32 × Nat) : State :=
          let dst := sramBase p.1 + c.dest + 64 * x.2
          let src := e.items + 64 * x.1.toNat
          if s.recordAsArmed c.list src then s.wrBytes dst (s.rdBytes src 64)
          else s.scramble ((List.range 64).map (dst + ·))
        let s' := g.zipIdx.foldl copy s
        .next ((s'.modTile p fun u =>
          { u.setReg c.sd (claimValue g) with
            claims := rest,
            held := u.held ++ g.map fun i => ⟨c.list, i, c.sd, c.target, c.claimAt⟩ }).readByModule
              (g.flatMap fun i => (List.range 64).map (e.items + 64 * i.toNat + ·)))
      | _, _ => .next s
    | [] => .next s

/-- R169 at the atomic unit: L := min(L, b); the result T = max(L, C). -/
def State.revokeList (s : State) (e : ListEntry) (b : Nat) : Nat × State :=
  let l := min (s.listL e) b
  (max l (s.listC e), (s.setListL e l).touchAtomic e.ctr)

def opRevoke (p : TileId) (sd sa : BitVec 5) (list : BitVec 12) (rsv : BitVec 1) (off : BitVec 32) (s : State) : TileOp :=
  let t := s.tile p
  (TileOp.mk p (Layout.revoke sd sa list rsv off) 8 [sd, sa]
    [chkRsv (rsv != 0 || off != 0),
      { bad := match s.listEntry list with
          | some e => e.noRevoke
          | none => true, cause := 0x06 }] false true fun s =>
    match s.listEntry list with
    | some e =>
      let r := s.revokeList e (lo32 (t.reg sa))
      (r.2.thenTile p fun u => u.setReg sd (BitVec.ofNat 64 r.1)).readByModule ((List.range 8).map (e.ctr + ·))
    | none => s).inSmem (.revoke p sd sa list rsv off) (some sd) t.smemStalled

def execRevoke (p : TileId) (sd sa : BitVec 5) (list : BitVec 12) (rsv : BitVec 1) (off : BitVec 32) (s : State) :
    Host.Outcome State Fault Refusal := s.run (opRevoke p sd sa list rsv off s)

/-- R170. -/
def opLset (p : TileId) (sd sa : BitVec 5) (list : BitVec 12) (rsv : BitVec 1) (off : BitVec 32) (s : State) : TileOp :=
  let t := s.tile p
  (TileOp.mk p (Layout.lset sd sa list rsv off) 8 [sa]
    [chkRsv (rsv != 0 || off != 0 || sd != 0), { bad := (s.listEntry list).isNone, cause := 0x06 }] false
    true fun s => match s.listEntry list with
      | some e => (((s.setListC e 0).setListL e (min (lo32 (t.reg sa)) e.cap)).touchAtomic e.ctr).noteArmed list
      | none => s).inSmem (.lset p sd sa list rsv off) none t.smemStalled

def execLset (p : TileId) (sd sa : BitVec 5) (list : BitVec 12) (rsv : BitVec 1) (off : BitVec 32) (s : State) :
    Host.Outcome State Fault Refusal := s.run (opLset p sd sa list rsv off s)

/-! ### Marks -/

/-- The cause 0x08 condition: a write-class instruction since the later of the granting CLAIM and the last mark. -/
def Tile.wroteSince (t : Tile) (h : HeldItem) : Bool := decide (max t.markAt h.claimAt < t.writeAt)

/-- Whether a MARK sends an enter request for the oldest held item: not for an item of a NOREVOKE list (R167). -/
def State.asksToEnter (s : State) (t : Tile) (en : Bool) : Bool :=
  match t.held with
  | h :: _ => en && !((s.listEntry h.list).any (·.noRevoke))
  | [] => false

/-- MARK as issued without an enter request: an entering mark waits for the tile's claims. (DEDUCED, log 4). -/
def opMark (p : TileId) (en : Bool) (rsv : BitVec 57) (s : State) : TileOp :=
  let t := s.tile p
  TileOp.mk p (Layout.mark en rsv) 8 []
    [chkRsv (rsv != 0),
      { bad := en && t.claims.isEmpty && (match t.held with
          | h :: _ => t.wroteSince h
          | [] => false), cause := 0x08 }] (en && !t.claims.isEmpty) false fun s =>
    s.thenTile p fun u =>
      { u with markAt := u.issueNo, held := if en then u.held.drop 1 else u.held }

/-- MARK (R152, R165, R167): with an item to enter, the request goes out and the mark is not issued before its reply. -/
def execMark (p : TileId) (en : Bool) (rsv : BitVec 57) (s : State) : Host.Outcome State Fault Refusal :=
  let t := s.tile p
  let x := opMark p en rsv s
  if t.state = .issuing ∧ s.pcLegal t.pc 8 ∧ (x.checks.find? (·.bad)).isNone ∧ !x.held ∧ s.asksToEnter t en then
    .next (s.modTile p fun u => { u with state := .atMark, enterRequested := true, enterAnswer := none })
  else s.run x

/-- The enter request arrives at the atomic unit, behind the tile's SMEM accesses: the item enters if i < L (R150, R167). (DEDUCED,
log 36). -/
def execEnterRequest (p : TileId) (s : State) : Host.Outcome State Fault Refusal :=
  let t := s.tile p
  match t.held with
  | h :: _ =>
    if t.state = .atMark ∧ t.enterRequested ∧ t.enterAnswer.isNone ∧ !t.smemBefore (t.issueNo + 1) then
      match s.listEntry h.list with
      | some e =>
        .next (((s.touchAtomic e.ctr).modTile p fun u =>
          { u with enterAnswer := some (decide (h.index.toNat < s.listL e)) }).readByModule
            ((List.range 8).map (e.ctr + ·)))
      | none => .next s
    else .next s
  | [] => .next s

/-- The revocation of the oldest held item and every later one of its list (R168). -/
def State.revokeItem (s : State) (p : TileId) (h : HeldItem) : State :=
  let t := s.tile p
  let n := (t.held.filter fun x => x.list == h.list).length
  let s := s.dropSlots p fun x => decide (max t.markAt h.claimAt < x.armedAt)
  let s := s.modTile p fun u =>
    { u.setReg h.sd 0xFFFFFFFFFFFFFFFF with
      held := u.held.filter fun x => x.list != h.list, state := .issuing, enterRequested := false,
      enterAnswer := none, pc := h.target }
  match s.listEntry h.list with
  | some e =>
    if e.done = 0 then s
    else (s.addMemCounter e.done (BitVec.ofNat 32 n)).readByModule ((List.range 8).map (e.done + ·))
  | none => s

/-- The enter reply (R167, R168). -/
def execEnterReply (p : TileId) (s : State) : Host.Outcome State Fault Refusal :=
  let t := s.tile p
  match t.held, t.enterAnswer with
  | h :: rest, some ok =>
    if t.state = .atMark then
      if ok then
        .next (s.modTile p fun u =>
          let v := u.advance 8 false
          { v with state := .issuing, held := rest, enterRequested := false, enterAnswer := none,
                   markAt := v.issueNo })
      else .next (s.revokeItem p h)
    else .next s
  | _, _ => .next s

/-! ### Unassigned encodings (R153, R154) -/

/-- The cause of a word whose opcode, long opcode or fn selector is unassigned; none for an assigned one. -/
def unassignedCause (w : W64) : Option Byte :=
  let op := w.toNat / 2 ^ 58
  let lop := w.toNat / 2 ^ 52 % 64
  let f3 := w.toNat / 2 ^ 55 % 8
  let f2 := w.toNat / 2 ^ 56 % 4
  if op = 0x1B then some 0x21
  else if op = 0x0E ∨ op = 0x0F ∨ (0x1C ≤ op ∧ op ≤ 0x1F) ∨ op = 0x27 ∨ (0x2D ≤ op ∧ op ≤ 0x2F) ∨ op = 0x33 ∨
      op = 0x3A ∨ op = 0x3B then some 0x01
  else if op = 0x3F ∧ 3 ≤ lop then some 0x01
  else if op = 0x3E ∧ 4 ≤ f3 then some 0x01
  else if op = 0x26 ∧ 5 ≤ f3 then some 0x01
  else if op = 0x32 ∧ 4 ≤ f3 then some 0x01
  else if op = 0x39 ∧ 2 ≤ f2 then some 0x01
  else none

def execUnassignedOpcode (p : TileId) (word : BitVec 64) (s : State) : Host.Outcome State Fault Refusal :=
  match unassignedCause word with
  | some c => s.run (TileOp.mk p word 8 [] [{ bad := true, cause := c }] false false id)
  | none => .next s

end Sys2Proof.Machine
end

