-- ==== Sys2Proof/Machine/Streams.lean ====
section
/-!
DEFINITION. Descriptors and streams: DMAKE, DBASE, SWAPH, SARM, COPY and the completion of a slot's transfer
(R200 to R222).
-/
namespace Sys2Proof.Machine

/-- A failing descriptor use: cause 0x48 of an invalid handle, or of a WR = 0 handle named as a destination (R210). -/
def chkHandle (t : Tile) (h : BitVec 4) (write : Bool) : Check :=
  { bad := match (t.handle h).desc with
      | some d => write && !d.wr
      | none => true, cause := 0x48, handle := h }

/-- The conditions of R114 on a turned read: a non-block array type, the dimension-0 origin 64-byte aligned. (DEDUCED, log 28). -/
def turnedOk (code : BitVec 5) (t : EType) (origin : Nat) : Bool :=
  arrayType code && t.block == 0 && origin * t.width % 512 == 0

def Tile.setHandle (t : Tile) (h : BitVec 4) (x : Handle) : Tile :=
  { t with handles := t.handles.set h.toNat x (by omega) }

/-- The validation of a record at issue (R200, R208). -/
def State.validateRecord (s : State) (p : TileId) (off : Nat) : Except DescErr Desc :=
  validate s.formats s.part.ddrEnd s.inSet (s.rdBytes (sramBase p.1 + off) 128)

def opDmake (p : TileId) (d : BitVec 4) (sa : BitVec 5) (rsv : BitVec 49) (s : State) : TileOp :=
  let t := s.tile p
  let v := t.reg sa
  let off := lo32 v
  let r := s.validateRecord p off
  TileOp.mk p (Layout.dmake d sa rsv) 8 [sa]
    [chkRsv (rsv != 0),
      { bad := hi32 v != 0 || off % 64 != 0 || decide (sramBytes < off + 128), cause := 0x4C, handle := d },
      match r with
      | .error e => { bad := !t.queueBusy 5, cause := e.cause, handle := d, dim := e.dim }
      | .ok _ => { bad := false, cause := 0 }] (t.queueBusy 5) false fun s =>
    match r with
    | .ok x => s.thenTile p fun u => u.setHandle d ⟨some x, false⟩
    | .error _ => s

def execDmake (p : TileId) (d : BitVec 4) (sa : BitVec 5) (rsv : BitVec 49) (s : State) :
    Host.Outcome State Fault Refusal := s.run (opDmake p d sa rsv s)

/-- The handle's descriptor with a new BASE, or the failing check 0x43 or 0x44 (R211). -/
def rebase (s : State) (x : Desc) (base : Nat) : Except DescErr Desc :=
  match s.etype x.etype with
  | none => .error ⟨0x41, 0⟩
  | some t =>
    let delta : Int := (base : Int) - x.base
    let bb : Int := Desc.blockBytes t
    if t.block ≠ 0 ∧ delta % bb ≠ 0 then .error ⟨0x43, 0⟩
    else
      let sb : Int := if t.block = 0 then x.sbase else (x.sbase : Int) + delta / bb * t.scaleBytes
      let y := { x with base := base, sbase := sb.toNat }
      match y.checkAlign t with
      | some e => .error e
      | none =>
        if sb < 0 then .error ⟨0x44, 0⟩
        else match y.checkRange t s.part.ddrEnd s.inSet with
          | some e => .error e
          | none => .ok y

def opDbase (p : TileId) (d : BitVec 4) (sa : BitVec 5) (rsv : BitVec 49) (s : State) : TileOp :=
  let t := s.tile p
  let v := t.reg sa
  let h := t.handle d
  let r : Except DescErr Desc := match h.desc with
    | some x => rebase s x v.toNat
    | none => .error ⟨0x48, 0⟩
  TileOp.mk p (Layout.dbase d sa rsv) 8 [sa]
    [chkRsv (rsv != 0), { bad := decide (2 ^ 48 ≤ v.toNat), cause := 0x40, handle := d },
      match r with
      | .error e => { bad := true, cause := e.cause, handle := d, dim := e.dim }
      | .ok _ => { bad := false, cause := 0 }] false false fun s =>
    match r with
    | .ok y => s.thenTile p fun u => u.setHandle d ⟨some y, h.half⟩
    | .error _ => s

def execDbase (p : TileId) (d : BitVec 4) (sa : BitVec 5) (rsv : BitVec 49) (s : State) :
    Host.Outcome State Fault Refusal := s.run (opDbase p d sa rsv s)

def opSwaph (p : TileId) (d : BitVec 4) (rsv : BitVec 54) (s : State) : TileOp :=
  let h := (s.tile p).handle d
  TileOp.mk p (Layout.swaph d rsv) 8 []
    [chkRsv (rsv != 0),
      { bad := match h.desc with
          | some x => !x.pair
          | none => true, cause := 0x48, handle := d }] false false fun s =>
    s.thenTile p fun u => u.setHandle d ⟨h.desc, !h.half⟩

def execSwaph (p : TileId) (d : BitVec 4) (rsv : BitVec 54) (s : State) :
    Host.Outcome State Fault Refusal := s.run (opSwaph p d rsv s)

/-- The windows of a SARM or COPY: source (a0, b0), destination (c0, e0); a turned copy swaps the extents (R219). -/
def moveWindows (t : Tile) (ds dd : BitVec 4) (sa sb sc : BitVec 5) (tr : Bool) : Option (Window × Window) :=
  let len0 := lo32 (t.reg sb)
  let len1 := hi32 (t.reg sb)
  match t.window ds false (lo32 (t.reg sa)) (hi32 (t.reg sa)) len0 len1,
      t.window dd true (lo32 (t.reg sc)) (hi32 (t.reg sc)) (if tr then len1 else len0) (if tr then len0 else len1) with
  | some x, some y => some (x, y)
  | _, _ => none

/-- Cause 0x4A (R219, R223), for windows of valid handles: a type whose width is no multiple of 8 begins at a byte, a 12-bit one
too. (DEDUCED, log 105). -/
def badMove (s : State) (x y : Window) (sarm : Bool) : Bool :=
  match s.etype x.desc.etype with
  | none => true
  | some t =>
    x.desc.etype != y.desc.etype || !x.inside || !y.inside ||
      (t.block != 0 && (x.a % t.block != 0 || y.a % t.block != 0 || x.len0 % t.block != 0)) ||
      (t.width % 8 != 0 && y.a * t.width % 8 != 0) || (sarm && y.desc.space1)

/-- The handle that TLE_DESC_ERR names for cause 0x4A: the source's where the first failing condition is its window's, else the
destination's. (DEDUCED, log 105). -/
def moveHandle (s : State) (x y : Window) : BitVec 4 :=
  match s.etype x.desc.etype with
  | none => y.handle
  | some t =>
    if x.desc.etype != y.desc.etype then y.handle
    else if !x.inside then x.handle
    else if !y.inside then y.handle
    else if t.block != 0 && (x.a % t.block != 0 || x.len0 % t.block != 0) then x.handle
    else y.handle

/-- Arm the slots of a move at issue. -/
def armMove (s : State) (p : TileId) (rs : BitVec 3) (ws : Option (BitVec 3)) (x y : Window) (tr : Bool)
    (tally : Option (BitVec 6)) : State :=
  s.thenTile p fun u =>
    let v := u.setRslot rs (some ⟨x, y, tr, ws.map fun k => ⟨k.toNat, by omega⟩, tally, u.issueNo⟩)
    match ws with
    | some k => v.setWslot k .copy
    | none => v

def opSarm (p : TileId) (ds : BitVec 4) (rs : BitVec 3) (dd : BitVec 4) (sa sb sc : BitVec 5) (te : Bool)
    (t : BitVec 6) (rsv : BitVec 25) (s : State) : TileOp :=
  let u := s.tile p
  let m := moveWindows u ds dd sa sb sc false
  TileOp.mk p (Layout.sarm ds rs dd sa sb sc te t rsv) 8 [sa, sb, sc]
    [chkRsv (rsv != 0 || (!te && t != 0)), chkHandle u ds false, chkHandle u dd true,
      { bad := match m with
          | some (x, y) => badMove s x y true
          | none => true, cause := 0x4A, handle := match m with
          | some (x, y) => moveHandle s x y
          | none => dd }]
    (u.slotBusy rs false || (match m with
      | some (x, y) => u.interlocked x false || u.interlocked y true
      | none => false)) false fun s =>
    match m with
    | some (x, y) => armMove s p rs none x y false (if te then some t else none)
    | none => s

def execSarm (p : TileId) (ds : BitVec 4) (rs : BitVec 3) (dd : BitVec 4) (sa sb sc : BitVec 5) (te : Bool)
    (t : BitVec 6) (rsv : BitVec 25) (s : State) :
    Host.Outcome State Fault Refusal := s.run (opSarm p ds rs dd sa sb sc te t rsv s)

def opCopy (p : TileId) (ds : BitVec 4) (rs : BitVec 3) (dd : BitVec 4) (ws : BitVec 3) (sa sb sc : BitVec 5)
    (tr : Bool) (rsv : BitVec 28) (s : State) : TileOp :=
  let u := s.tile p
  let m := moveWindows u ds dd sa sb sc tr
  TileOp.mk p (Layout.copy ds rs dd ws sa sb sc tr rsv) 8 [sa, sb, sc]
    [chkRsv (rsv != 0), chkHandle u ds false, chkHandle u dd true,
      { bad := match m with
          | some (x, y) => badMove s x y false
          | none => true, cause := 0x4A, handle := match m with
          | some (x, y) => moveHandle s x y
          | none => dd },
      { bad := tr && (match m with
          | some (x, _) => match s.etype x.desc.etype with
            | some t => !turnedOk x.desc.etype t x.a
            | none => true
          | none => true), cause := 0x4B, handle := ds }]
    (u.slotBusy rs false || u.slotBusy ws true || (match m with
      | some (x, y) => u.interlocked x false || u.interlocked y true
      | none => false)) true fun s =>
    match m with
    | some (x, y) => armMove s p rs (some ws) x y tr none
    | none => s

def execCopy (p : TileId) (ds : BitVec 4) (rs : BitVec 3) (dd : BitVec 4) (ws : BitVec 3) (sa sb sc : BitVec 5)
    (tr : Bool) (rsv : BitVec 28) (s : State) :
    Host.Outcome State Fault Refusal := s.run (opCopy p ds rs dd ws sa sb sc tr rsv s)

/-- The move itself (R219, R212): every element's bits, with the scales of their blocks; reads see the state before.
(DEDUCED, log 92). -/
def State.moveWindow (s : State) (p : TileId) (t : EType) (x y : Window) (tr : Bool) : State :=
  let cells := (List.range x.len1).flatMap fun j => (List.range x.len0).map fun i => (i, j)
  (cells.foldl (fun u c =>
    let d := if tr then (y.a + c.2, y.b + c.1) else (y.a + c.1, y.b + c.2)
    let u := u.wrCode p t y d.1 d.2 (s.rdCode p t x (x.a + c.1) (x.b + c.2))
    if t.block ≠ 0 ∧ c.1 % t.block = 0 then
      u.wrScale p t y d.1 d.2 (s.rdScale p t x (x.a + c.1) (x.b + c.2))
    else u) s).settleWrites p t y

/-- Totals of a pass chain that a move carries keep their notes at their new addresses (R110, DEDUCED, log 101). -/
def State.moveTotals (s : State) (p : TileId) (t : EType) (x y : Window) (tr : Bool) : State :=
  let one (m : List (Nat × Option RawTotal)) (c : Nat × Nat) : List (Nat × Option RawTotal) :=
    let d := if tr then (y.a + c.2, y.b + c.1) else (y.a + c.1, y.b + c.2)
    if x.desc.isPad (x.a + c.1) (x.b + c.2) || y.desc.isPad d.1 d.2 then m
    else match (x.elemBytes p t (x.a + c.1) (x.b + c.2)).head?, (y.elemBytes p t d.1 d.2).head? with
      | some a, some b => Sparse.set none m b (Sparse.get none s.rawTotals a)
      | _, _ => m
  if x.desc.etype = 0x0F ∧ s.rawTotals ≠ [] then
    { s with rawTotals := ((List.range x.len1).flatMap fun j => (List.range x.len0).map fun i => (i, j)).foldl one s.rawTotals }
  else s

/-- Whether the turn buffer serves a turned read of an earlier COPY (R115, R219). (DEDUCED, log 92). -/
def Tile.turnBefore (t : Tile) (n : Nat) : Bool := t.rslots.toList.any fun r => match r with
  | some y => y.turned && decide (y.armedAt < n)
  | none => false

/-- Whether an earlier armed transfer of the tile still has to write bytes that this one reads (R150). (DEDUCED, log 92). -/
def State.readsPending (s : State) (p : TileId) (t : EType) (x : Transfer) : Bool :=
  let src := x.src.readBytes p t
  (s.tile p).rslots.toList.any fun r => match r with
    | some y => decide (y.armedAt < x.armedAt) && (s.destBytes p y).any src.contains
    | none => false

/-- The transfer of a read slot completes (R214, R219 to R221): the data lands, the slots become idle, and a SARM with
te = 1 adds 1 to its tally. A turned one waits while the turn buffer serves an earlier turned read. (DEDUCED, log 92). -/
def execStreamSlotComplete (p : TileId) (slot : SlotId) (s : State) : Host.Outcome State Fault Refusal :=
  match (s.tile p).rslots[slot] with
  | none => .next s
  | some x =>
    match s.etype x.src.desc.etype with
    | none => .next s
    | some t =>
      if s.readsPending p t x || (x.turned && (s.tile p).turnBefore x.armedAt) then .next s
      else
        let src := x.src.readBytes p t
        let dst := x.dst.bytes p t
        let s1 := if src.any dst.contains || dst.any (s.meetsCounter · 1) then s.scramble dst
          else (s.moveWindow p t x.src x.dst x.turned).moveTotals p t x.src x.dst x.turned
        let s2 := s1.modTile p fun u =>
          { u with
            rslots := u.rslots.set slot none
            wslots := match x.wslot with
              | some k => u.wslots.set k .idle
              | none => u.wslots
            strm := { u.strm with
              racc := u.strm.racc + BitVec.ofNat 32 (x.src.accesses t false)
              wacc := if x.wslot.isSome then u.strm.wacc + BitVec.ofNat 32 (x.dst.accesses t true) else u.strm.wacc } }
        let s3 := match x.tally with
          | some k => s2.addTally p k 1
          | none => s2
        .next (s3.tilePoison p (s.poisonedLines src))

end Sys2Proof.Machine
end

