-- ==== Sys2Proof/Machine/VectorEngine.lean ====
section
/-!
DEFINITION. The vector engine (R177 to R188, R192) and the GEN instructions (R195, R196).
-/
namespace Sys2Proof.Machine

/-- cnt holds the count minus one (R177). -/
def vecCount (cnt : BitVec 12) : Nat := cnt.toNat + 1

/-- The byte offsets of element i of a vector operand. -/
def VecOperand.bytes (o : VecOperand) (w i : Nat) : List Nat :=
  let b := (o.bit w i).toNat
  (List.range ((b % 8 + w + 7) / 8)).map (b / 8 + ·)

/-- The bytes of all `cnt` elements. -/
def VecOperand.allBytes (o : VecOperand) (w cnt : Nat) : List Nat := (List.range cnt).flatMap (o.bytes w)

/-- The lowest byte and one past the highest byte of an operand. -/
def VecOperand.span (o : VecOperand) (w cnt : Nat) : Int × Int :=
  let x := o.bit w 0
  let y := o.bit w (cnt - 1)
  (min x y / 8, (max x y + w + 7) / 8)

/-- Whether destination bytes overlap source bytes at another index (R179). -/
def overlapsOther (d : VecOperand) (wd : Nat) (o : VecOperand) (w cnt : Nat) : Bool :=
  let a := d.span wd cnt
  let b := o.span w cnt
  if a.2 ≤ b.1 ∨ b.2 ≤ a.1 then false
  else if d = o ∧ wd = w ∧ w % 8 = 0 ∧ d.stride ≠ 0 then false
  else (List.range cnt).any fun i => (List.range cnt).any fun j =>
    i != j && (d.bytes wd i).any (o.bytes w j).contains

/-- The code of element i of a vector operand in tile p's SRAM. -/
def State.vecCode (s : State) (p : TileId) (o : VecOperand) (w i : Nat) : Nat :=
  s.rdBits (fun a => sramBase p.1 + a) (o.bit w i).toNat w

/-- Add the counts of R184. -/
def VecCounters.count (c : VecCounters) (l : List ElemOut) : VecCounters :=
  let n (f : ElemOut → Bool) : Nat := (l.filter f).length
  { c with invalid := satAdd32 c.invalid (n (·.invalid)), divzero := satAdd32 c.divzero (n (·.divzero)),
           sat := satAdd32 c.sat (n (·.sat)), nannum := satAdd32 c.nannum (n (·.nanNum)),
           nonfin := satAdd32 c.nonfin (n (·.nonfin)) }

/-- Store element codes of width `w`, or leave the destination unpredictable on an overlap (R179). -/
def State.vecStore (s : State) (p : TileId) (d : VecOperand) (w cnt : Nat) (overlap : Bool) (codes : List Nat) :
    State :=
  if overlap then s.scramble ((d.allBytes w cnt).map (sramBase p.1 + ·))
  else codes.zipIdx.foldl (fun u x => u.wrBits (fun a => sramBase p.1 + a) (d.bit w x.2).toNat w x.1) s

/-- The end of an element-wise instruction: draws reserved, results stored, counters counted. -/
def State.vecFinish (s : State) (p : TileId) (d : VecOperand) (w cnt per : Nat) (overlap : Bool)
    (outs : List ElemOut) : State :=
  let s := if per = 0 then s else s.modTile p fun t => t.reserve fun l => per * laneShare cnt l
  let s := s.vecStore p d w cnt overlap (outs.map (·.code))
  s.modTile p fun t => { t with vec := t.vec.count outs }

def isFloatCode (c : BitVec 5) : Bool := decide (0x0C ≤ c.toNat ∧ c.toNat ≤ 0x0F)
def isIntCode (c : BitVec 5) : Bool := decide (c.toNat ≤ 0x03)

/-- The types of VOP per function (R181). -/
def vopType (fn : BitVec 6) (ty : BitVec 5) : Bool :=
  let n := fn.toNat
  if n = 6 ∨ n = 7 ∨ n = 10 then isFloatCode ty
  else if n ≤ 13 then isFloatCode ty || isIntCode ty
  else if n ≤ 20 then decide (0x0C ≤ ty.toNat ∧ ty.toNat ≤ 0x0E)
  else isIntCode ty

def vopAssigned (fn : BitVec 6) : Bool :=
  let n := fn.toNat
  decide (n ≤ 13 ∨ (16 ≤ n ∧ n ≤ 20) ∨ (24 ≤ n ∧ n ≤ 29))

def vopUnary (fn : BitVec 6) : Bool :=
  let n := fn.toNat
  decide (n = 8 ∨ n = 9 ∨ n = 10 ∨ (16 ≤ n ∧ n ≤ 20))

/-- Width of a built-in type code; 8 where undefined (the type check has failed then). -/
def State.widthOf (s : State) (c : BitVec 5) : Nat := match s.etype c with
  | some t => t.width
  | none => 8

def opVop (p : TileId) (sd sa sb : BitVec 5) (fn : BitVec 6) (ty : BitVec 5) (rnd : BitVec 2) (cnt : BitVec 12)
    (rsv : BitVec 18) (s : State) : TileOp :=
  let t := s.tile p
  let n := vecCount cnt
  let w := s.widthOf ty
  let unary := vopUnary fn
  let d := vecOperand (t.reg sd)
  let a := vecOperand (t.reg sa)
  let b := vecOperand (t.reg sb)
  TileOp.mk p (Layout.vop sd sa sb fn ty rnd cnt rsv) 8 [sd, sa, sb]
    [chkSel (!vopAssigned fn), chkRsv (rsv != 0 || (unary && sb != 0)),
      { bad := !vopType fn ty, cause := 0x30 },
      { bad := !vecLegal (t.reg sd) w n true || !vecLegal (t.reg sa) w n false ||
          (!unary && !vecLegal (t.reg sb) w n false), cause := 0x31 },
      { bad := rnd != 0 && (isIntCode ty || (decide (16 ≤ fn.toNat ∧ fn.toNat ≤ 20))), cause := 0x33 }] false true
    fun s =>
      match s.etype ty with
      | none => s
      | some e =>
        let u := s.tile p
        let per := if rnd = 3 then 1 else 0
        let outs := (List.range n).map fun i =>
          (vopElem e fn (Rnd.ofCode rnd) (if rnd = 3 then u.elemDraw 1 i 0 else 0) (s.vecCode p a w i)
            (if unary then 0 else s.vecCode p b w i)).getD ⟨0, false, false, false, false, false⟩
        s.vecFinish p d w n per (overlapsOther d w a w n || (!unary && overlapsOther d w b w n)) outs

def execVop (p : TileId) (sd sa sb : BitVec 5) (fn : BitVec 6) (ty : BitVec 5) (rnd : BitVec 2) (cnt : BitVec 12)
    (rsv : BitVec 18) (s : State) :
    Host.Outcome State Fault Refusal := s.run (opVop p sd sa sb fn ty rnd cnt rsv s)

/-- A non-block type of whole bytes (R185, R187). -/
def byteType (t : EType) : Bool := t.block == 0 && t.width % 8 == 0

/-- VTER on element codes (R185). -/
def vterElem (t : EType) (fn : Nat) (r : Rnd) (g a b c : Nat) : ElemOut :=
  let va := t.kind.decode a
  let vb := t.kind.decode b
  let vc := t.kind.decode c
  if fn = 1 then
    let k := if vc.isZero then b else a
    ⟨k, false, false, false, false, (t.kind.decode k).nonFinite⟩
  else match t.kind with
    | .int signed w =>
      let x := intValue signed w a
      let y := intValue signed w b
      let z := intValue signed w c
      .ofInt t.kind w ⟨if fn = 0 then x * y + z else min (max x y) z, false⟩
    | k =>
      let v := if fn = 0 then FVal.add (FVal.mul va vb) vc else fMin (fMax va vb) vc
      .ofFn k r g ⟨.val v, v.isNaN && !(va.isNaN || vb.isNaN || vc.isNaN), false⟩

def opVter (p : TileId) (sd sa sb sc : BitVec 5) (fn : BitVec 3) (ty : BitVec 5) (rnd : BitVec 2)
    (cnt : BitVec 12) (rsv : BitVec 16) (s : State) : TileOp :=
  let t := s.tile p
  let n := vecCount cnt
  let w := s.widthOf ty
  let d := vecOperand (t.reg sd)
  let a := vecOperand (t.reg sa)
  let b := vecOperand (t.reg sb)
  let c := vecOperand (t.reg sc)
  let okType : Bool := match s.etype ty with
    | some e => if fn = 1 then byteType e else isFloatCode ty || isIntCode ty
    | none => false
  TileOp.mk p (Layout.vter sd sa sb sc fn ty rnd cnt rsv) 8 [sd, sa, sb, sc]
    [chkSel (decide (3 ≤ fn.toNat)), chkRsv (rsv != 0), { bad := !okType, cause := 0x30 },
      { bad := !vecLegal (t.reg sd) w n true || !vecLegal (t.reg sa) w n false || !vecLegal (t.reg sb) w n false ||
          !vecLegal (t.reg sc) w n false, cause := 0x31 },
      { bad := rnd != 0 && (fn != 0 || isIntCode ty), cause := 0x33 }] false true
    fun s =>
      match s.etype ty with
      | none => s
      | some e =>
        let u := s.tile p
        let outs := (List.range n).map fun i =>
          vterElem e fn.toNat (Rnd.ofCode rnd) (if rnd = 3 then u.elemDraw 1 i 0 else 0) (s.vecCode p a w i)
            (s.vecCode p b w i) (s.vecCode p c w i)
        s.vecFinish p d w n (if rnd = 3 then 1 else 0)
          (overlapsOther d w a w n || overlapsOther d w b w n || overlapsOther d w c w n) outs

def execVter (p : TileId) (sd sa sb sc : BitVec 5) (fn : BitVec 3) (ty : BitVec 5) (rnd : BitVec 2)
    (cnt : BitVec 12) (rsv : BitVec 16) (s : State) :
    Host.Outcome State Fault Refusal := s.run (opVter p sd sa sb sc fn ty rnd cnt rsv s)

/-- The elements that a sub-byte group of R51 holds (R178). -/
def subByteGroup (w : Nat) : Nat := if w = 4 then 2 else if w = 6 then 4 else if w = 12 then 2 else 1

/-- The scale vector of VCVT is legal (R186). -/
def scaleLegal (v : W64) (t : EType) (n : Nat) : Bool :=
  let o := vecOperand v
  v.toNat / 2 ^ 48 == 0 && o.stride == 1 && o.off % t.scaleBytes == 0 &&
    decide (o.off + n / t.block * t.scaleBytes ≤ sramBytes)

/-- Whether the element or the scale that a code is read with is NaN. -/
def nanOperand (t : EType) (scale code : Nat) : Bool :=
  (t.kind.decode code).isNaN || (t.block != 0 && (t.scale.decode scale).isNaN)

/-- Whether an operand of result i is NaN: element i, or any element of its block where the scale is chosen for a block
(DEDUCED, log 24). -/
def nanNear (y : EType) (nanIn : List Bool) (i : Nat) : Bool :=
  if y.block = 0 then nanIn.getD i false else ((nanIn.drop (i / y.block * y.block)).take y.block).any id

/-- VCVT (R186, R197): with both types blocked no side's scale vector is checked, and the cause is 0x35. Where the
elements of a block destination meet its own scales, both are unpredictable (DEDUCED, log 114). -/
def opVcvt (p : TileId) (sd sa sc ts td : BitVec 5) (rnd : BitVec 2) (cnt : BitVec 12) (rsv : BitVec 19)
    (s : State) : TileOp :=
  let t := s.tile p
  let n := vecCount cnt
  let d := vecOperand (t.reg sd)
  let a := vecOperand (t.reg sa)
  let c := vecOperand (t.reg sc)
  let types := (s.etype ts, s.etype td)
  let blocked : Option EType := match types with
    | (some x, some y) => if x.block = 0 then (if y.block = 0 then none else some y) else if y.block = 0 then some x else none
    | _ => none
  TileOp.mk p (Layout.vcvt sd sa sc ts td rnd cnt rsv) 8 [sd, sa, sc]
    [chkRsv (rsv != 0), { bad := types.1.isNone || types.2.isNone, cause := 0x30 },
      { bad := (match types with
          | (some x, some y) => !vecLegal (t.reg sd) y.width n true || !vecLegal (t.reg sa) x.width n false
          | _ => true) || (match blocked with
          | some b => !scaleLegal (t.reg sc) b n
          | none => false), cause := 0x31 },
      { bad := (match types with
          | (some x, some y) => n % subByteGroup x.width != 0 || n % subByteGroup y.width != 0
          | _ => true) || (match blocked with
          | some b => n % b.block != 0
          | none => false), cause := 0x32 },
      { bad := match types with
          | (some x, some y) => (x.block != 0 && y.block != 0) || (x.block == 0 && y.block == 0 && sc != 0)
          | _ => true, cause := 0x35 }] false true
    fun s =>
      match types with
      | (some x, some y) =>
        let u := s.tile p
        let per := if rnd = 3 then 1 else 0
        let g (i : Nat) : Nat := if rnd = 3 then u.elemDraw 1 i 0 else 0
        let scaleOf (i : Nat) : Nat :=
          if x.block = 0 then 0
          else leNat (s.rdBytes (sramBase p.1 + c.off + i / x.block * x.scaleBytes) x.scaleBytes)
        let src := (List.range n).map fun i => s.vecCode p a x.width i
        let run : ConvRun :=
          if ts = td then ⟨src, [], 0, 0⟩
          else convRun y (Rnd.ofCode rnd) (src.zipIdx.map fun k => (x.decode (scaleOf k.2) k.1, g k.2))
        let value (k : Nat × Nat) : FVal := y.decode (run.scales.getD (if y.block = 0 then 0 else k.2 / y.block) 0) k.1
        let results := run.codes.zipIdx.map value
        let nonfin := (results.filter (·.nonFinite)).length
        let nanIn := src.zipIdx.map fun k => nanOperand x (scaleOf k.2) k.1
        let invalid := (results.zipIdx.filter fun k => k.1.isNaN && !nanNear y nanIn k.2).length
        let clash := overlapsOther d y.width a x.width n
        let scaleBytes : List Nat := match blocked with
          | some b => (List.range (n / b.block * b.scaleBytes)).map (c.off + ·)
          | none => []
        let dst := d.allBytes y.width n
        let hit := dst.any scaleBytes.contains ||
          (y.block != 0 && (a.allBytes x.width n).any scaleBytes.contains)
        let s := if per = 0 then s else s.modTile p fun t => t.reserve (laneShare n)
        let s := s.vecStore p d y.width n (clash || hit) run.codes
        let s :=
          if y.block = 0 then s
          else if hit then s.scramble (scaleBytes.map (sramBase p.1 + ·))
          else run.scales.zipIdx.foldl (fun s k =>
            s.wrNat (sramBase p.1 + c.off + k.2 * y.scaleBytes) y.scaleBytes k.1) s
        s.modTile p fun t =>
          { t with vec := { t.vec with invalid := satAdd32 t.vec.invalid invalid, sat := satAdd32 t.vec.sat run.sat,
                                       nannum := satAdd32 t.vec.nannum run.nanNum,
                                       nonfin := satAdd32 t.vec.nonfin nonfin } }
      | _ => s

def execVcvt (p : TileId) (sd sa sc ts td : BitVec 5) (rnd : BitVec 2) (cnt : BitVec 12) (rsv : BitVec 19)
    (s : State) :
    Host.Outcome State Fault Refusal := s.run (opVcvt p sd sa sc ts td rnd cnt rsv s)

/-- A chunk of at most 16 products added in order, RNE in the chunk format (R67). -/
def chunkSum (l : List FVal) : FVal := l.foldl (fun a x => rneChunk (FVal.add a x)) FVal.zero

/-- Products promoted chunk by chunk into a binary64 total (R67). -/
def promote : Nat → FVal → List FVal → FVal
  | 0, total, _ => total
  | _ + 1, total, [] => total
  | n + 1, total, l => promote n (rne64 (FVal.add total (chunkSum (l.take 16)))) (l.drop 16)

/-- The total of a run of products from a starting total (R67, R87). -/
def dotTotal (start : FVal) (l : List FVal) : FVal := promote (l.length / 16 + 1) start l

/-- The best value of a segment and its position; none where every value is NaN (R188). -/
def bestOf (better : FVal → FVal → Bool) (l : List FVal) : Option (FVal × Nat) :=
  l.zipIdx.foldl (fun acc x =>
    if x.1.isNaN then acc
    else match acc with
      | none => some x
      | some y => if better x.1 y.1 then some x else acc) none

/-- The value and index of one VRED segment (R187, R188). -/
def vredSegment (fn : Nat) (a b : List FVal) : FVal × W32 :=
  let none32 : W32 := 0xFFFFFFFF
  let pick (r : Option (FVal × Nat)) : FVal × W32 := match r with
    | some x => (x.1, BitVec.ofNat 32 x.2)
    | none => (.nan, none32)
  match fn with
  | 0 => (dotTotal FVal.zero a, none32)
  | 1 => (dotTotal FVal.zero (List.zipWith FVal.mul a b), none32)
  | 2 => pick (bestOf (fun x y => FVal.lt y x) a)
  | 3 => pick (bestOf FVal.lt a)
  | 4 => (amax a, none32)
  | 5 => (.fin false (a.filter fun v => !v.isZero).length 0, none32)
  | _ => (.fin false (a.filter (·.nonFinite)).length 0, none32)

/-- SUM and DOT types (R187). -/
def sumType (c : BitVec 5) : Bool :=
  let n := c.toNat
  decide (n = 0 ∨ n = 1 ∨ n = 4 ∨ n = 5 ∨ n = 0x0C ∨ n = 0x0D ∨ n = 0x0E)

/-- Whether bytes of a VRED record overlap source bytes at another index (R179). -/
def recordsOverlap (dst records : Nat) (o : VecOperand) (w cnt : Nat) : Bool :=
  (List.range cnt).any fun j => (o.bytes w j).any fun x =>
    decide (dst ≤ x ∧ x < dst + 16 * records) && (x - dst) / 16 != j

def opVred (p : TileId) (sd sa sb sl : BitVec 5) (fn : BitVec 3) (ty : BitVec 5) (cnt : BitVec 12)
    (rsv : BitVec 18) (s : State) : TileOp :=
  let t := s.tile p
  let n := vecCount cnt
  let w := s.widthOf ty
  let dot := fn == 1
  let a := vecOperand (t.reg sa)
  let b := vecOperand (t.reg sb)
  let len := if sl = 0 then n else (t.reg sl).toNat % 2 ^ 13
  let dst := (t.reg sd).toNat
  let okType : Bool := match s.etype ty with
    | some e => if fn.toNat ≤ 1 then sumType ty else byteType e
    | none => false
  let badLen := len == 0 || decide (n < len) || n % len != 0
  TileOp.mk p (Layout.vred sd sa sb sl fn ty cnt rsv) 8 [sd, sa, sb, sl]
    [chkSel (fn == 7), chkRsv (rsv != 0 || (!dot && sb != 0)), { bad := !okType, cause := 0x30 },
      { bad := dst % 16 != 0 || decide (2 ^ 32 ≤ dst) || !vecLegal (t.reg sa) w n false ||
          (dot && !vecLegal (t.reg sb) w n false) ||
          (!badLen && decide (sramBytes < dst + 16 * (n / len))), cause := 0x31 },
      { bad := badLen, cause := 0x32 }] false true
    fun s =>
      match s.etype ty with
      | none => s
      | some e =>
        let val (o : VecOperand) (i : Nat) : FVal := e.kind.decode (s.vecCode p o w i)
        let segs := (List.range (n / len)).map fun k =>
          let ia := (List.range len).map fun i => val a (k * len + i)
          let ib := if dot then (List.range len).map fun i => val b (k * len + i) else []
          let r := vredSegment fn.toNat ia ib
          (r, decide (fn.toNat ≤ 1) && r.1.isNaN && !(ia.any (·.isNaN)) && !(ib.any (·.isNaN)))
        let dbytes := (List.range (16 * segs.length)).map (dst + ·)
        let clash := recordsOverlap dst segs.length a w n || (dot && recordsOverlap dst segs.length b w n)
        let rec1 (r : FVal × W32) : List Byte :=
          leBytes (b64Bits r.1).toNat 8 ++ leBytes r.2.toNat 4 ++ List.replicate 4 0#8
        let s := if clash then s.scramble (dbytes.map (sramBase p.1 + ·))
          else s.wrBytes (sramBase p.1 + dst) (segs.flatMap fun r => rec1 r.1)
        s.modTile p fun t =>
          { t with vec := { t.vec with
              invalid := satAdd32 t.vec.invalid (segs.filter (·.2)).length,
              nonfin := satAdd32 t.vec.nonfin (segs.filter fun r => r.1.1.nonFinite).length } }

def execVred (p : TileId) (sd sa sb sl : BitVec 5) (fn : BitVec 3) (ty : BitVec 5) (cnt : BitVec 12)
    (rsv : BitVec 18) (s : State) :
    Host.Outcome State Fault Refusal := s.run (opVred p sd sa sb sl fn ty cnt rsv s)

/-- The input types of VMP (R192). -/
def vmpIn (c : BitVec 5) : Bool :=
  let n := c.toNat
  decide (n = 0 ∨ n = 1 ∨ n = 2 ∨ n = 4 ∨ n = 5 ∨ n = 0x0C ∨ n = 0x0D ∨ n = 0x0E)

/-- Add what the operations of micro-program runs count (R464). -/
def VecCounters.countOps (c : VecCounters) (l : List MpState) : VecCounters :=
  { c with invalid := satAdd32 c.invalid ((l.map (·.invalid)).foldl (· + ·) 0),
           divzero := satAdd32 c.divzero ((l.map (·.divzero)).foldl (· + ·) 0) }

/-- A micro-program over the elements (VMP, R192): its operations count INVALID and DIVZERO, each where it meets the condition, and
its output conversion SAT and NANNUM (R464). -/
def opVmp (p : TileId) (sd sa sb sc : BitVec 5) (mpid : BitVec 4) (ti td : BitVec 5) (rnd : BitVec 2)
    (cnt : BitVec 12) (rsv : BitVec 10) (s : State) : TileOp :=
  let t := s.tile p
  let n := vecCount cnt
  let wi := s.widthOf ti
  let wd := s.widthOf td
  let img : Option Image := match s.job with
    | some j => j.mprog
    | none => none
  let mp : Option MpRecord := match img with
    | some i => if mpDefined i mpid.toNat then some (mpRecord i mpid.toNat) else none
    | none => none
  let nin := match mp with
    | some r => r.nin
    | none => 1
  let ops := ([sa, sb, sc].take nin).map fun r => t.reg r
  let okOut : Bool := match s.etype td with
    | some e => byteType e && td != 0x0F#5
    | none => false
  TileOp.mk p (Layout.vmp sd sa sb sc mpid ti td rnd cnt rsv) 8 [sd, sa, sb, sc]
    [chkRsv (rsv != 0), { bad := !vmpIn ti || !okOut, cause := 0x30 },
      { bad := !vecLegal (t.reg sd) wd n true || ops.any fun v => !vecLegal v wi n false, cause := 0x31 },
      { bad := mp.isNone || (decide (nin < 2) && sb != 0) || (decide (nin < 3) && sc != 0), cause := 0x34 }]
    false true
    fun s =>
      match mp, s.etype ti, s.etype td with
      | some r, some ei, some eo =>
        let u := s.tile p
        let nd := r.draws
        let per := nd + (if rnd = 3 then 1 else 0)
        let srcs := ops.map vecOperand
        let d := vecOperand (t.reg sd)
        let one (i : Nat) : ElemOut × MpState :=
          let m := mpRun r (srcs.map fun o => ei.kind.decode (s.vecCode p o wi i))
            ((List.range nd).map fun k => u.elemDraw per i k)
          let c := eo.kind.conv (Rnd.ofCode rnd) (if rnd = 3 then u.elemDraw per i nd else 0)
            (m.e.getD r.oute FVal.zero)
          (⟨c.code, false, false, c.sat, c.nanNum, (eo.kind.decode c.code).nonFinite⟩, m)
        let outs := (List.range n).map one
        (s.vecFinish p d wd n per (srcs.any fun o => overlapsOther d wd o wi n) (outs.map (·.1))).modTile p fun t =>
          { t with vec := t.vec.countOps (outs.map (·.2)) }
      | _, _, _ => s

def execVmp (p : TileId) (sd sa sb sc : BitVec 5) (mpid : BitVec 4) (ti td : BitVec 5) (rnd : BitVec 2)
    (cnt : BitVec 12) (rsv : BitVec 10) (s : State) :
    Host.Outcome State Fault Refusal := s.run (opVmp p sd sa sb sc mpid ti td rnd cnt rsv s)

/-- One draw per element (VRAND, R194). -/
def opVrand (p : TileId) (sd sb : BitVec 5) (mode : BitVec 2) (cnt : BitVec 12) (rsv : BitVec 34) (s : State) : TileOp :=
  let t := s.tile p
  let n := vecCount cnt
  let w := if mode = 2 then 8 else 32
  let d := vecOperand (t.reg sd)
  let thr := lo32 (t.reg sb)
  TileOp.mk p (Layout.vrand sd sb mode cnt rsv) 8 [sd, sb]
    [chkSel (mode == 3), chkRsv (rsv != 0 || (mode != 2 && sb != 0)),
      { bad := !vecLegal (t.reg sd) w n true, cause := 0x31 }] false true
    fun s =>
      let u := s.tile p
      let code (g : Nat) : Nat :=
        if mode = 0 then g
        else if mode = 1 then (b32Bits (uniform24 g)).toNat
        else if g < thr then 1 else 0
      s.vecFinish p d w n 1 false
        ((List.range n).map fun i => ⟨code (u.elemDraw 1 i 0), false, false, false, false, false⟩)

def execVrand (p : TileId) (sd sb : BitVec 5) (mode : BitVec 2) (cnt : BitVec 12) (rsv : BitVec 34) (s : State) :
    Host.Outcome State Fault Refusal := s.run (opVrand p sd sb mode cnt rsv s)

/-! ### GEN (R195, R196) -/

def State.mapLanes (s : State) (p : TileId) (f : Nat → Lane → Lane) : State :=
  s.thenTile p fun u => { u with lanes := u.lanes.mapIdx f }

def opSeek (p : TileId) (sa : BitVec 5) (sub : BitVec 8) (rsv : BitVec 42) (s : State) : TileOp :=
  let v := (s.tile p).reg sa
  TileOp.mk p (Layout.seek sa sub rsv) 8 [sa] [chkRsv (rsv != 0)] false true fun s =>
    s.mapLanes p fun l x =>
      { x with c0 := 0, c1 := BitVec.ofNat 32 (sub.toNat * 2 ^ 16 + l), c2 := v.truncate 32,
               c3 := BitVec.extractLsb' 32 32 v }

def execSeek (p : TileId) (sa : BitVec 5) (sub : BitVec 8) (rsv : BitVec 42) (s : State) :
    Host.Outcome State Fault Refusal := s.run (opSeek p sa sub rsv s)

def opSkey (p : TileId) (sa : BitVec 5) (sub : BitVec 8) (rsv : BitVec 42) (s : State) : TileOp :=
  let v := (s.tile p).reg sa
  TileOp.mk p (Layout.skey sa sub rsv) 8 [sa] [chkRsv (rsv != 0 || sub != 0)] false true fun s =>
    s.mapLanes p fun _ x => { x with key := v }

def execSkey (p : TileId) (sa : BitVec 5) (sub : BitVec 8) (rsv : BitVec 42) (s : State) :
    Host.Outcome State Fault Refusal := s.run (opSkey p sa sub rsv s)

/-- The 32 bytes of a lane in a state image (R196). -/
def Lane.image (l : Lane) : List Byte :=
  leBytes l.key.toNat 8 ++ leBytes l.c0.toNat 4 ++ leBytes l.c1.toNat 4 ++ leBytes l.c2.toNat 4 ++
    leBytes l.c3.toNat 4 ++ List.replicate 8 0#8

/-- The lane that entry l of an image at `at` spells. -/
def State.laneAt (s : State) (a : Nat) : Lane :=
  ⟨s.rd64 a, s.rd32 (a + 8), s.rd32 (a + 12), s.rd32 (a + 16), s.rd32 (a + 20)⟩

/-- The offset of a state image is illegal: cause 0x31 (R197). -/
def badGenOffset (off : Nat) : Bool := off % 64 != 0 || decide (sramBytes < off + 2048)

def opGsave (p : TileId) (sa : BitVec 5) (sub : BitVec 8) (rsv : BitVec 42) (s : State) : TileOp :=
  let off := lo32 ((s.tile p).reg sa)
  TileOp.mk p (Layout.gsave sa sub rsv) 8 [sa]
    [chkRsv (rsv != 0 || sub != 0), { bad := badGenOffset off, cause := 0x31 }] false true fun s =>
      s.wrBytes (sramBase p.1 + off) ((s.tile p).lanes.toList.flatMap Lane.image)

def execGsave (p : TileId) (sa : BitVec 5) (sub : BitVec 8) (rsv : BitVec 42) (s : State) :
    Host.Outcome State Fault Refusal := s.run (opGsave p sa sub rsv s)

def opGrest (p : TileId) (sa : BitVec 5) (sub : BitVec 8) (rsv : BitVec 42) (s : State) : TileOp :=
  let off := lo32 ((s.tile p).reg sa)
  let a := sramBase p.1 + off
  let bad := (List.range 64).any fun l => s.rdNat (a + 32 * l + 24) 8 != 0
  TileOp.mk p (Layout.grest sa sub rsv) 8 [sa]
    [chkRsv (rsv != 0 || sub != 0), { bad := badGenOffset off, cause := 0x31 }, { bad := bad, cause := 0x36 }]
    false true fun s => s.mapLanes p fun l _ => s.laneAt (a + 32 * l)

def execGrest (p : TileId) (sa : BitVec 5) (sub : BitVec 8) (rsv : BitVec 42) (s : State) :
    Host.Outcome State Fault Refusal := s.run (opGrest p sa sub rsv s)

/-- SKIP moves c0 and counts wraps like a reservation (R193, R195). -/
def opGenSkip (p : TileId) (sa : BitVec 5) (sub : BitVec 8) (rsv : BitVec 42) (s : State) : TileOp :=
  let n := lo32 ((s.tile p).reg sa)
  TileOp.mk p (Layout.genSkip sa sub rsv) 8 [sa] [chkRsv (rsv != 0 || sub != 0)] false true fun s =>
    s.thenTile p fun u => u.reserve fun _ => n

def execGenSkip (p : TileId) (sa : BitVec 5) (sub : BitVec 8) (rsv : BitVec 42) (s : State) :
    Host.Outcome State Fault Refusal := s.run (opGenSkip p sa sub rsv s)

end Sys2Proof.Machine
end

