-- ==== Sys2Proof/Machine/Drain.lean ====
section
/-!
DEFINITION. The drain of both arrays: its configuration, its stages, statistics, selection and conversion
(R96 to R102, R107, R108, R463 to R466), and the operands an array instruction names.
-/
namespace Sys2Proof.Machine

/-! ### The configuration record -/

/-- A drain configuration (R107). -/
structure DrainCfg where
  outType : BitVec 5
  rnd : BitVec 2
  outEn : Bool
  scaleMode : Nat
  biasMode : Nat
  cmode : Bool
  statEn : Bool
  curve : BitVec 5
  sel : Nat
  selk : Nat
  scale : FVal
  hbase : BitVec 16
  binw : Byte
  mbase : Nat
  scaleD : BitVec 4
  scaleS : BitVec 3
  biasD : BitVec 4
  biasS : BitVec 3
  auxD : BitVec 4
  auxS : BitVec 3
  selD : BitVec 4
  selS : BitVec 3
  deriving DecidableEq, Repr

def drainCfg (r : Image) : DrainCfg :=
  let b (o : Nat) : Nat := Image.field r o 1
  let d (o : Nat) : BitVec 4 := BitVec.ofNat 4 (b o)
  let k (o : Nat) : BitVec 3 := BitVec.ofNat 3 (b o / 16)
  { outType := BitVec.ofNat 5 (b 0), rnd := BitVec.ofNat 2 (b 0 / 32), outEn := (b 0).testBit 7,
    scaleMode := b 1 % 4, biasMode := b 1 / 4 % 4, cmode := (b 1).testBit 4, statEn := (b 1).testBit 5,
    curve := BitVec.ofNat 5 (b 2), sel := b 3 % 4, selk := b 3 / 4 % 8,
    scale := Fmt.b32.decode (Image.field r 4 4), hbase := BitVec.ofNat 16 (Image.field r 8 2),
    binw := BitVec.ofNat 8 (b 0x0A % 4), mbase := Image.field r 0x0C 4,
    scaleD := d 0x10, scaleS := k 0x10, biasD := d 0x11, biasS := k 0x11, auxD := d 0x12, auxS := k 0x12,
    selD := d 0x13, selS := k 0x13 }

/-- Whether a record is invalid by R108, the statistics base aside. (DEDUCED, log 32). -/
def drainInvalid (ft : FormatTable) (curves : Option Image) (adapter : Bool) (r : Image) : Bool :=
  let c := drainCfg r
  let b (o : Nat) : Nat := Image.field r o 1
  let reserved := decide (64 ≤ b 1) || decide (32 ≤ b 2) || decide (32 ≤ b 3) || decide (4 ≤ b 0x0A) || b 0x0B != 0 ||
    (List.range 4).any (fun i => decide (128 ≤ b (0x10 + i))) || Image.field r 0x14 12 != 0
  let adp := adapter &&
    (decide (2 ≤ c.scaleMode) || c.biasMode != 0 || c.cmode || c.curve != 0 || c.sel != 0 || Image.field r 0x0C 20 != 0)
  reserved || adp || !curveLegal curves c.curve || c.sel == 3 ||
    (if c.sel = 0 then c.selk != 0 else c.selk == 0 || decide (4 < c.selk)) ||
    (c.biasMode == 3 && c.cmode) || (ft.resolve c.outType).isNone ||
    decide (c.hbase.toInt < -1074) || decide (1023 < c.hbase.toInt)

/-- The statistics record changes its base while it is not empty (R101): cause 0x29. -/
def StatRec.rebaseBad (s : StatRec) (c : DrainCfg) : Bool :=
  c.statEn && (s.hbase != c.hbase || s.binw != c.binw) && s.count != 0

/-- The record with the base a DCFG or ACFG gives it (R101). -/
def StatRec.rebase (s : StatRec) (c : DrainCfg) : StatRec :=
  if c.statEn then { s with hbase := c.hbase, binw := c.binw } else s

/-! ### Statistics -/

/-- Count one value of stage 5 (R101). -/
def StatRec.add (s : StatRec) (v : FVal) : StatRec :=
  let s := { s with count := satAdd32 s.count 1 }
  match v with
  | .fin _ 0 _ => { s with zeros := satAdd32 s.zeros 1 }
  | .fin _ m e =>
    let a := FVal.fin false m e
    let bin := (max 0 (min 15 ((a.topExp - s.hbase.toInt) / ((2 ^ s.binw.toNat : Nat) : Int) + 1))).toNat
    { s with hist := s.hist.set! bin (satAdd32 (s.hist.getD bin 0) 1),
             maxabs := if FVal.lt (ofB64 s.maxabs) a then b64Bits a else s.maxabs }
  | _ => { s with nonfin := satAdd32 s.nonfin 1 }

/-- The 96 bytes of a record. -/
def StatRec.image (s : StatRec) : List Byte :=
  s.hist.toList.flatMap (fun h => leBytes h.toNat 4) ++ leBytes s.maxabs.toNat 8 ++ leBytes s.zeros.toNat 4 ++
    leBytes s.nonfin.toNat 4 ++ leBytes s.count.toNat 4 ++ leBytes s.hbase.toNat 2 ++ leBytes s.binw.toNat 1 ++
    List.replicate 9 0#8

/-- The record that 96 bytes spell. -/
def StatRec.ofImage (r : Image) : StatRec :=
  { hist := Vector.ofFn fun i => BitVec.ofNat 32 (Image.field r (4 * i.1) 4),
    maxabs := BitVec.ofNat 64 (Image.field r 0x40 8), zeros := BitVec.ofNat 32 (Image.field r 0x48 4),
    nonfin := BitVec.ofNat 32 (Image.field r 0x4C 4), count := BitVec.ofNat 32 (Image.field r 0x50 4),
    hbase := BitVec.ofNat 16 (Image.field r 0x54 2), binw := BitVec.ofNat 8 (Image.field r 0x56 1) }

/-- Merge record `a` into `t`, of one base: counts with saturation, the larger MAXABS. -/
def StatRec.merge (t a : StatRec) : StatRec :=
  { t with hist := Vector.ofFn fun i => satAdd32 t.hist[i] (a.hist[i]).toNat,
           maxabs := if FVal.lt (ofB64 t.maxabs) (ofB64 a.maxabs) then a.maxabs else t.maxabs,
           zeros := satAdd32 t.zeros a.zeros.toNat, nonfin := satAdd32 t.nonfin a.nonfin.toNat,
           count := satAdd32 t.count a.count.toNat }

/-! ### Operands of an array instruction -/

/-- One operand through a handle: its slot, its direction and its window; none for an invalid handle. -/
structure Operand where
  handle : BitVec 4
  slot : BitVec 3
  write : Bool
  win : Option Window
  /-- The contiguous bytes of a selection output in place of a window (R102). -/
  bytes : Option Nat := none
  /-- Whether the instruction names a slot for the operand; a memory-side unit reads and writes without one (R267, R269). -/
  slotted : Bool := true

def Tile.operand (t : Tile) (h : BitVec 4) (k : BitVec 3) (write : Bool) (a b len0 len1 : Nat) : Operand :=
  { handle := h, slot := k, write := write, win := t.window h write a b len0 len1 }

/-- Only an operand outside the tile's own SRAM arms the slot named for it (R214). -/
def Operand.arms (o : Operand) : Bool := o.slotted && match o.win with
  | some w => w.desc.space1
  | none => false

def Operand.typeIs (o : Operand) (c : BitVec 5) : Bool := match o.win with
  | some w => w.desc.etype == c
  | none => true

/-- The operand's type satisfies a condition; an invalid handle passes here and fails with 0x48. -/
def Operand.typeOk (o : Operand) (s : State) (f : BitVec 5 → EType → Bool) : Bool := match o.win with
  | some w => match s.etype w.desc.etype with
    | some t => f w.desc.etype t
    | none => false
  | none => true

/-- The base of a contiguous output: BASE, or BASE + HALF for the second half (R102). -/
def Window.start (w : Window) : Nat := w.desc.base + (if w.half then w.desc.half else 0)

/-- The operand's window lies inside its view; a selection output inside the range of a write descriptor (R102). -/
def Operand.inside (o : Operand) : Bool := match o.win with
  | some w => match o.bytes with
    | some n => w.desc.wr && decide (w.desc.rbase ≤ w.start) && decide (w.start + n ≤ w.desc.rbase + w.desc.rlen)
    | none => w.inside
  | none => true

/-- The handle of an operand that arms the slot of an earlier operand, if any (R214): the failed use that cause 0x49 names.
(DEDUCED, log 105). -/
def armedTwice : List Operand → Option (BitVec 4)
  | [] => none
  | o :: l => match if o.arms then l.find? fun q => q.arms && q.slot == o.slot && q.write == o.write else none with
    | some q => some q.handle
    | none => armedTwice l

/-- The stream-engine checks of a list of operands: 0x48 for each handle, then 0x49 (R210, R223); that a selection names a write
descriptor is a condition of cause 0x24 (R102). (DEDUCED, log 29). -/
def operandChecks (t : Tile) (ops : List Operand) : List Check :=
  ops.map (fun o => chkHandle t o.handle (o.write && o.bytes.isNone)) ++
    [{ bad := (armedTwice ops).isSome, cause := 0x49, handle := (armedTwice ops).getD 0 }]

/-- Whether an operand would arm a busy slot: the instruction holds issue (R215). -/
def Operand.busy (t : Tile) (o : Operand) : Bool := o.arms && t.slotBusy o.slot o.write

/-- Whether the pair interlock keeps an operand from starting (R218). -/
def Operand.locked (t : Tile) (o : Operand) : Bool := match o.win with
  | some w => t.interlocked w o.write
  | none => false

/-- Whether an operand holds an instruction that starts as it issues. -/
def Operand.holds (t : Tile) (o : Operand) : Bool := o.busy t || o.locked t

/-- The slots that operands arm, and the halves of paired handles that they name. -/
def armedSlots (ops : List Operand) : List (BitVec 3 × Bool) := (ops.filter (·.arms)).map fun o => (o.slot, o.write)
def namedHalves (ops : List Operand) : List (BitVec 4 × Bool × Bool) := ops.filterMap fun o => match o.win with
  | some w => if w.desc.pair then some (w.handle, w.half, o.write) else none
  | none => none

/-- An instruction of the PORT queue with operands: it waits there for the pair interlock of each (R218). -/
def TileOp.named (x : TileOp) (i : Instr) (t : Tile) (ops : List Operand) (stalled : Bool) : TileOp :=
  { x with entry := some ⟨i, true, none, stalled || ops.any (·.locked t), armedSlots ops, namedHalves ops⟩ }

/-- The physical bytes an operand covers. -/
def State.operandBytes (s : State) (p : TileId) (o : Operand) : List Nat := match o.win with
  | some w => match o.bytes with
    | some n => (List.range n).map fun i => w.desc.phys p (w.start + i)
    | none => match s.etype w.desc.etype with
      | some t => if o.write then w.bytes p t else w.readBytes p t
      | none => []
  | none => []

/-- The accesses of the operands' slots count in RACC and WACC. -/
def State.countOperands (s : State) (p : TileId) (ops : List Operand) : State :=
  let n (o : Operand) : Nat := match o.win with
    | some w => match o.bytes with
      | some k => (w.start + k + 63) / 64 - w.start / 64
      | none => match s.etype w.desc.etype with
        | some t => w.accesses t o.write
        | none => 0
    | none => 0
  let sum (write : Bool) : Nat := ((ops.filter fun o => o.arms && o.write == write).map n).foldl (· + ·) 0
  s.modTile p fun u =>
    { u with strm := { u.strm with racc := u.strm.racc + BitVec.ofNat 32 (sum false),
                                   wacc := u.strm.wacc + BitVec.ofNat 32 (sum true) } }

/-- The poisoned lines that the read operands meet (R258). -/
def State.operandPoison (s : State) (p : TileId) (ops : List Operand) : List Nat :=
  s.poisonedLines ((ops.filter fun o => !o.write).flatMap (s.operandBytes p))

/-- The poisoned accesses that the read operands meet (R258). -/
def State.faultOperands (s : State) (p : TileId) (ops : List Operand) : State := s.tilePoison p (s.operandPoison p ops)

/-- The value of a window's element at an offset from its origin. -/
def State.elemAt (s : State) (p : TileId) (w : Option Window) (i j : Nat) : FVal := match w with
  | some w => match s.etype w.desc.etype with
    | some t => s.rdElem p t w (w.a + i) (w.b + j)
    | none => .nan
  | none => .nan

/-! ### Passes -/

/-- SINGLE and LAST apply the drain functions (R87). -/
def passEnds (pass : BitVec 2) : Bool := pass == 0 || pass == 3
/-- MIDDLE and LAST take the continuation input. -/
def passContinues (pass : BitVec 2) : Bool := pass == 2 || pass == 3

/-! ### The shape of one multiply -/

/-- What one multiply streams into its drain: rows by columns, how an output element (row, column) lies in the
output's view, the lane of column 0, and its operands. -/
structure DrainShape where
  rows : Nat
  cols : Nat
  /-- Rows run along view dimension 0 (MMUL, DXMUL); otherwise columns do (DWMUL, AMUL). -/
  rowFirst : Bool
  a0 : Nat
  b0 : Nat
  lane0 : Nat
  /-- The operand that the pass streams, and its origin in the reduction. -/
  stream : Operand
  origin : Nat
  out : Option Operand
  cont : Option Operand
  scale : Option Operand
  bias : Option Operand
  aux : Option Operand
  sel : Option Operand
  mp : Option MpRecord

/-- The offsets from the output window's origin of an element. -/
def DrainShape.at (h : DrainShape) (r c : Nat) : Nat × Nat := if h.rowFirst then (r, c) else (c, r)

/-- The window operand a multiply has at its output's position. -/
def Tile.outOperand (t : Tile) (d : BitVec 4) (k : BitVec 3) (write rowFirst : Bool) (a0 b0 rows cols : Nat) :
    Operand :=
  t.operand d k write a0 b0 (if rowFirst then rows else cols) (if rowFirst then cols else rows)

/-- The operands that the latched record adds on a SINGLE or LAST pass: scale, bias, second input, selection. -/
def DrainShape.withCfg (h : DrainShape) (t : Tile) (c : DrainCfg) : DrainShape :=
  let row0 := if h.rowFirst then h.a0 else h.b0
  let col0 := if h.rowFirst then h.b0 else h.a0
  let vec (d : BitVec 4) (k : BitVec 3) (mode : Nat) (perRow : Nat) : Option Operand :=
    if mode = perRow then some (t.operand d k false row0 0 h.rows 1)
    else if mode = perRow + 1 then some (t.operand d k false col0 0 h.cols 1)
    else none
  { h with
    scale := vec c.scaleD c.scaleS c.scaleMode 2
    bias := if c.biasMode = 3 then none else vec c.biasD c.biasS c.biasMode 1
    aux := if c.biasMode = 3 ∨ c.cmode then
        some (t.outOperand c.auxD c.auxS false h.rowFirst h.a0 h.b0 h.rows h.cols)
      else none
    sel := if c.sel = 0 then none
      else some { t.operand c.selD c.selS true 0 0 1 1 with bytes := some (h.cols * c.selk * 16) } }

/-- All operands of a shape. -/
def DrainShape.operands (h : DrainShape) : List Operand :=
  [h.out, h.cont, h.scale, h.bias, h.aux, h.sel].filterMap id

/-- The checks a shape adds, grouped by ascending cause: types (0x22), windows (0x24), output blocks (0x25), output
and continuation types (0x27). `c` is the latched record of a SINGLE or LAST pass, none for FIRST and MIDDLE. -/
def DrainShape.badType (h : DrainShape) (s : State) (c : Option DrainCfg) : Bool :=
  let is32 (o : Option Operand) : Bool := match o with
    | some o => o.typeIs 0x0E
    | none => true
  let zOk : Bool := match h.aux, c with
    | some o, some c =>
      if c.biasMode = 3 then o.typeIs 0x0E
      else o.typeOk s fun code _ => arrayType code && decide (4 ≤ code.toNat)
    | _, _ => true
  !is32 h.scale || !is32 h.bias || !zOk

/-- Rests on a choice of the model (DEDUCED, log 29). -/
def DrainShape.badWindow (h : DrainShape) : Bool := h.operands.any fun o => !o.inside

/-- The block grouping of R99 on the output (R109): rows and the row origin, or columns and their origin. (DEDUCED, log 29). -/
def DrainShape.badBlock (h : DrainShape) (s : State) (c : Option DrainCfg) : Bool :=
  match h.out, c with
  | some _, some c => match s.etype c.outType with
    | some t => t.block != 0 && ((if h.rowFirst then h.rows else h.cols) % t.block != 0 || h.a0 % t.block != 0)
    | none => false
  | _, _ => false

def DrainShape.badOutType (h : DrainShape) (c : Option DrainCfg) : Bool :=
  (match h.out with
    | some o => !o.typeIs (match c with
      | some c => c.outType
      | none => 0x0F)
    | none => false) ||
  match h.cont with
  | some o => !o.typeIs 0x0F
  | none => false

/-! ### The stages -/

/-- Stages 2 to 4 of R96 on one total, and the counts of a micro-program (R122, R464). (DEDUCED, log 27). -/
def drainValue (c : DrainCfg) (curves : Option Image) (mp : Option MpRecord) (scale bias z : FVal) (v : FVal) :
    FVal × Nat × Nat :=
  let v := if c.scaleMode = 0 then v else rne64 (FVal.mul v scale)
  let v := if c.biasMode = 0 then v else rne64 (FVal.add v bias)
  match mp with
  | some r =>
    let m := mpRun r [rne32 v, z] []
    (m.e.getD 0 FVal.zero, m.invalid, m.divzero)
  | none =>
    if c.cmode then (rne64 (FVal.mul v (curveFn curves c.curve z)), 0, 0)
    else if c.curve = 0 then (v, 0, 0) else (curveFn curves c.curve v, 0, 0)

/-- The SELK best of a column, best first: value and index; of equal values the lower index first (R102). -/
def selectBest (max : Bool) (mbase : Nat) (l : List FVal) (k : Nat) : List (FVal × Nat) :=
  let better (x y : FVal × Nat) : Bool :=
    (if max then FVal.lt y.1 x.1 else FVal.lt x.1 y.1) || (FVal.eq x.1 y.1 && decide (x.2 < y.2))
  let rec insert (x : FVal × Nat) : List (FVal × Nat) → List (FVal × Nat)
    | [] => [x]
    | y :: ys => if better x y then x :: y :: ys else y :: insert x ys
  let all := l.zipIdx.map fun x => (x.1, (mbase + x.2) % 2 ^ 32)
  (((all.filter fun x => !x.1.isNaN).foldl (fun acc x => insert x acc) []).take k)

/-- The bytes of a selection output (R102). -/
def selectionBytes (c : DrainCfg) (cols : List (List FVal)) : List Byte :=
  cols.flatMap fun col =>
    let best := selectBest (c.sel == 1) c.mbase col c.selk
    (List.range c.selk).flatMap fun i =>
      match best[i]? with
      | some x => leBytes (b64Bits x.1).toNat 8 ++ leBytes x.2 4 ++ List.replicate 4 0#8
      | none => leBytes (b64Bits .nan).toNat 8 ++ leBytes 0xFFFFFFFF 4 ++ List.replicate 4 0#8

/-- The converted output of a drain (stage 7): codes row by row, and a scale code for the first element of a group. -/
structure DrainOut where
  codes : List (Nat × Nat × Nat)
  scales : List (Nat × Nat × Nat)
  sat : Nat
  nanNum : Nat

/-- Stage 7 over all elements: groups along each column where rows are innermost (R99), else along the flattened
order, columns within rows (R119). (DEDUCED, log 30, 31). -/
def drainConvert (t : EType) (r : Rnd) (rowFirst : Bool) (rows cols : Nat) (v : Nat → Nat → FVal)
    (draw : Nat → Nat → Nat) : DrainOut :=
  let place (l : List (Nat × Nat)) : DrainOut :=
    let run := convRun t r (l.map fun x => (v x.1 x.2, draw x.1 x.2))
    ⟨List.zipWith (fun x k => (x.1, x.2, k)) l run.codes,
      if t.block = 0 then []
      else List.zipWith (fun k g => let x := l.getD (g * t.block) (0, 0); (x.1, x.2, k)) run.scales
        (List.range run.scales.length), run.sat, run.nanNum⟩
  if rowFirst then
    ((List.range cols).map fun c => place ((List.range rows).map fun r => (r, c))).foldl
      (fun x y => ⟨x.codes ++ y.codes, x.scales ++ y.scales, x.sat + y.sat, x.nanNum + y.nanNum⟩) ⟨[], [], 0, 0⟩
  else place ((List.range rows).flatMap fun r => (List.range cols).map fun c => (r, c))

/-- Write codes through the output window, with the scales of their blocks. -/
def State.writeOut (s : State) (p : TileId) (t : EType) (w : Window) (h : DrainShape) (o : DrainOut) : State :=
  let s := o.codes.foldl (fun s x =>
    s.wrCode p t w (w.a + (h.at x.1 x.2.1).1) (w.b + (h.at x.1 x.2.1).2) x.2.2) s
  (o.scales.foldl (fun s x =>
    s.wrScale p t w (w.a + (h.at x.1 x.2.1).1) (w.b + (h.at x.1 x.2.1).2) x.2.2) s).settleWrites p t w

/-- Whether the output's bytes meet bytes that the same instruction reads otherwise than as the continuation of the
same elements (R88); the output is then unpredictable but confined to its bytes. (DEDUCED, log 33). -/
def State.outOverlaps (s : State) (p : TileId) (h : DrainShape) (streamed : List Operand) : Bool :=
  match h.out with
  | none => false
  | some o =>
    let dst := s.operandBytes p o
    let hits (q : Operand) : Bool := (s.operandBytes p q).any dst.contains
    (streamed ++ [h.scale, h.bias, h.aux].filterMap id).any hits ||
      match h.cont with
      | some q => s.operandBytes p q != s.operandBytes p { o with write := false } && hits q
      | none => false

/-- The address of the raw total of an output element, none at a pad cell. -/
def DrainShape.totalAt (h : DrainShape) (p : TileId) (o : Option Operand) (r c : Nat) : Option Nat := match o with
  | some { win := some w, .. } =>
    let x := (w.a + (h.at r c).1, w.b + (h.at r c).2)
    if w.desc.isPad x.1 x.2 then none else (w.elemBytes p (.plain (.flt Fmt.b64) 64) x.1 x.2).head?
  | _ => none

/-- The positions of a multiply's outputs. -/
def DrainShape.cells (h : DrainShape) : List (Nat × Nat) :=
  (List.range h.rows).flatMap fun r => (List.range h.cols).map fun c => (r, c)

/-- Whether memory still holds what a list of bytes held. -/
def State.holdsStill (s : State) (l : List (Nat × Byte)) : Bool := l.all fun x => s.peek x.1 == x.2

/-- The pass that wrote a total streamed the same bytes through the same window, or ones above it in the reduction: going on from it is
no ascending chain (R110). (DEDUCED, log 101). -/
def State.descends (s : State) (p : TileId) (h : DrainShape) (x : RawTotal) : Bool := match h.stream.win with
  | some w => x.tile == p && x.desc == some w.desc && x.half == w.half && decide (h.origin ≤ x.origin) && s.holdsStill x.read
  | none => false

/-- Whether the chain that an output element continues is well formed: the total there is the one that an earlier FIRST or MIDDLE pass
wrote, and this pass goes on above it (R110, DEDUCED, log 101). -/
def State.chained (s : State) (p : TileId) (h : DrainShape) (r c : Nat) : Bool := match h.totalAt p h.cont r c with
  | none => true
  | some a => match Sparse.get none s.rawTotals a with
    | some x => s.holdsStill (x.value.zipIdx.map fun b => (a + b.2, b.1)) && !s.descends p h x
    | none => false

/-- Take the free values of the totals that R110 leaves unpredictable (log 101). -/
def State.takeTotals (s : State) (p : TileId) (h : DrainShape) : State :=
  if h.cells.all fun x => s.chained p h x.1 x.2 then s else { s with freeCtr := s.freeCtr + h.rows * h.cols }

/-- The bytes that memory holds at some addresses. -/
def State.peeked (s : State) (l : List Nat) : List (Nat × Byte) := l.map fun a => (a, s.peek a)

/-- What a pass that goes on leaves at its total at `a`, which memory now holds. -/
def State.rawTotal (s : State) (p : TileId) (h : DrainShape) (read : List (Nat × Byte)) (a : Nat) : RawTotal :=
  { value := (List.range 8).map fun i => s.peek (a + i), tile := p, desc := h.stream.win.map (·.desc),
    half := (h.stream.win.map (·.half)).getD false, origin := h.origin, read := read }

/-- Note which addresses hold totals of a pass that goes on: those that a FIRST or MIDDLE pass has written (`read`: what it streamed),
and no longer those to which a SINGLE or LAST pass has written binary64 results. (DEDUCED, log 101). -/
def State.noteTotals (s : State) (p : TileId) (h : DrainShape) (read : Option (List (Nat × Byte))) : State :=
  let l : List Nat := match h.out with
    | some o => if o.typeIs 0x0F then h.cells.filterMap fun x => h.totalAt p h.out x.1 x.2 else []
    | none => []
  { s with rawTotals := l.foldl (fun m a => Sparse.set none m a (read.map fun b => s.rawTotal p h b a)) s.rawTotals }

/-- A FIRST or MIDDLE pass writes its raw binary64 totals (R87). -/
def State.drainRaw (s : State) (p : TileId) (h : DrainShape) (overlap : Bool) (total : Nat → Nat → FVal) : State :=
  match h.out with
  | some { win := some w, .. } =>
    let t := EType.plain (.flt Fmt.b64) 64
    (if overlap then s.scramble (w.bytes p t)
      else s.writeOut p t w h (drainConvert t .rne h.rowFirst h.rows h.cols total fun _ _ => 0)).noteTotals p h (some (s.peeked (s.operandBytes p h.stream)))
  | _ => s

/-- What a SINGLE or LAST pass hands to the writer of its output. -/
structure DrainResult where
  state : State
  value : Nat → Nat → FVal
  out : Option (EType × DrainOut)
  /-- The selection's bytes by address, which follow the output (R102). -/
  sel : List (Nat × Byte)

/-- Update one drain's statistics record of a tile. -/
def Tile.modStat (t : Tile) (adapter : Bool) (f : StatRec → StatRec) : Tile :=
  if adapter then { t with adpStat := f t.adpStat } else { t with mainStat := f t.mainStat }

/-- A SINGLE or LAST pass: stages 2 to 7, its counters, statistics, selection and the reservation of draws (R96,
R100); the stores of the output and of the selection are left to the caller. (DEDUCED, log 30, 33). -/
def State.drainFull (s : State) (p : TileId) (h : DrainShape) (c : DrainCfg) (adapter : Bool)
    (total : Nat → Nat → FVal) : DrainResult :=
  let curves : Option Image := match s.job with
    | some j => j.curves
    | none => none
  let win (o : Option Operand) : Option Window := match o with
    | some x => x.win
    | none => none
  let scaleAt (r k : Nat) : FVal :=
    if c.scaleMode = 1 then c.scale else s.elemAt p (win h.scale) (if c.scaleMode = 2 then r else k) 0
  let auxAt (r k : Nat) : FVal :=
    match h.aux with
    | some o => s.elemAt p o.win (h.at r k).1 (h.at r k).2
    | none => FVal.zero
  let biasAt (r k : Nat) : FVal :=
    if c.biasMode = 3 then auxAt r k else s.elemAt p (win h.bias) (if c.biasMode = 1 then r else k) 0
  let rows := (List.range h.rows).map fun r => (List.range h.cols).map fun k =>
    drainValue c curves h.mp (scaleAt r k) (biasAt r k) (auxAt r k) (total r k)
  let v (r k : Nat) : FVal := ((rows.getD r []).getD k (FVal.zero, 0, 0)).1
  let flat := rows.flatMap id
  let nonfin := (flat.filter fun x => x.1.nonFinite).length
  let u := s.tile p
  let draw (r k : Nat) : Nat := if c.rnd = 3 then (u.lane (h.lane0 + k)).draw r else 0
  let out : Option (EType × DrainOut) :=
    if c.outEn then match s.etype c.outType with
      | some t => some (t, drainConvert t (Rnd.ofCode c.rnd) h.rowFirst h.rows h.cols v draw)
      | none => none
    else none
  let s := s.modTile p fun u =>
    let u := { u with arr := { u.arr with
      nonfin := satAdd32 u.arr.nonfin nonfin,
      sat := satAdd32 u.arr.sat (match out with
        | some o => o.2.sat
        | none => 0),
      nannum := satAdd32 u.arr.nannum (match out with
        | some o => o.2.nanNum
        | none => 0) } }
    let u := { u with vec := { u.vec with
      invalid := satAdd32 u.vec.invalid ((flat.map (·.2.1)).foldl (· + ·) 0),
      divzero := satAdd32 u.vec.divzero ((flat.map (·.2.2)).foldl (· + ·) 0) } }
    let u := if c.statEn then u.modStat adapter fun st => flat.foldl (fun st x => st.add x.1) st else u
    if c.outEn ∧ c.rnd = 3 then
      u.reserve fun l => if h.lane0 ≤ l ∧ l < h.lane0 + h.cols then h.rows else 0
    else u
  let sel := match h.sel with
    | some { win := some w, .. } =>
      (selectionBytes c ((List.range h.cols).map fun k => (List.range h.rows).map fun r => v r k)).zipIdx.map
        fun x => (w.desc.phys p (w.start + x.2), x.1)
    | _ => []
  ⟨s, v, out, sel⟩

/-- The drain of a multiply whose output goes to memory. -/
def State.drain (s : State) (p : TileId) (h : DrainShape) (c : Option DrainCfg) (adapter : Bool)
    (streamed : List Operand) (total : Nat → Nat → FVal) : State :=
  let overlap := s.outOverlaps p h streamed
  let s0 := s.takeTotals p h
  let s1 := match c with
    | none => s0.drainRaw p h overlap total
    | some c =>
      let r := s0.drainFull p h c adapter total
      let s2 := match h.out, r.out with
        | some { win := some w, .. }, some (t, o) =>
          (if overlap then r.state.scramble (w.bytes p t) else r.state.writeOut p t w h o).noteTotals p h none
        | _, _ => r.state
      s2.wrList r.sel
  (s1.countOperands p (streamed ++ h.operands)).tilePoison p (s.operandPoison p (streamed ++ h.operands))

/-- The totals a multiply starts from: +0, or the continuation input (R87), a free value where the chain is not well formed (R110,
log 101). (DESIGN CHOICE, log 95). -/
def State.startTotal (s : State) (p : TileId) (h : DrainShape) (r c : Nat) : FVal :=
  match h.cont with
  | some o =>
    if s.chained p h r c then s.elemAt p o.win (h.at r c).1 (h.at r c).2
    else ofB64 (Config.freeValue (s.freeCtr + r * h.cols + c))
  | none => FVal.zero

/-- The total of an output element over its products in ascending reduction order (R67, R84). -/
def State.totals (s : State) (p : TileId) (h : DrainShape) (depth : Nat) (x w : Nat → Nat → FVal) (r c : Nat) : FVal :=
  dotTotal (s.startTotal p h r c) ((List.range depth).map fun k => FVal.mul (w r k) (x c k))

end Sys2Proof.Machine
end

