-- ==== Sys2Proof/Machine/Routing.lean ====
section
/-!
DEFINITION. Routed experts: the tables and the state image, RSEL, RASSIGN and the assigner, RXCH, and the bias loop
(R225 to R251).
-/
namespace Sys2Proof.Machine

/-! ### The tables (R225 to R227) -/

namespace Route

def nlayer (r : Image) : Nat := Image.field r 4 2
def nbtab (r : Image) : Nat := Image.field r 6 1
def stateAt (r : Image) : Nat := Image.field r 8 8
def layer (r : Image) (l : Nat) : Image := (r.drop (0x420 + 32 * l)).take 32
def btab (r : Image) (b : Nat) : Image := (r.drop (0x20 + 128 * b)).take 128
def lkey (e : Image) : W64 := BitVec.ofNat 64 (Image.field e 0 8)
def nexp (e : Image) : Nat := Image.field e 8 2
def ncc (e : Image) : Nat := Image.field e 0x0A 1
def nc (e : Image) : Nat := 4 * 2 ^ ncc e
def k (e : Image) : Nat := Image.field e 0x0B 1
def cf (e : Image) : Nat := Image.field e 0x0C 1
def gmode (e : Image) : Nat := Image.field e 0x0D 1
def btabNo (e : Image) : Nat := Image.field e 0x0E 1
def cscale (e : Image) : Nat := Image.field e 0x0F 1
def period (e : Image) : Nat := Image.field e 0x10 2
def nbkt (b : Image) : Nat := Image.field b 0 1
def bclamp (b : Image) : FVal := Fmt.b32.decode (Image.field b 4 4)
def thr (b : Image) (i : Nat) : FVal := Fmt.b32.decode (Image.field b (8 + 4 * i) 4)
def step (b : Image) (i : Nat) : FVal := Fmt.b32.decode (Image.field b (0x40 + 4 * i) 4)
/-- The bytes of a choice record (R234). -/
def rs (e : Image) : Nat := if nc e = 16 then 128 else 64
/-- Capacity and slot array stride of a call of T tokens (R238). -/
def cap (e : Image) (t : Nat) : Nat := min ((cf e * t * k e + 16 * nexp e - 1) / (16 * nexp e)) t
def sstr (c : Nat) : Nat := (4 * c + 63) / 64 * 64

def layerValid (r : Image) (l : Nat) : Bool :=
  let e := layer r l
  decide (1 ≤ nexp e) && decide (nexp e ≤ 1024) && decide (ncc e ≤ 2) && decide (nc e ≤ nexp e) && decide (1 ≤ k e) &&
    decide (k e ≤ 4) && decide (k e ≤ nc e) && decide (16 ≤ cf e) && decide (cf e ≤ 128) && decide (gmode e ≤ 2) &&
    (btabNo e == 0xFF || decide (btabNo e < nbtab r)) && decide (cscale e ≤ 2) && decide (1 ≤ period e) &&
    decide (period e ≤ 1024) && Image.field e 0x12 14 == 0

def btabValid (r : Image) (i : Nat) : Bool :=
  let b := btab r i
  let n := nbkt b
  if i < nbtab r then
    decide (1 ≤ n) && decide (n ≤ 15) && Image.field b 1 3 == 0 && (bclamp b).isFinite && FVal.le FVal.zero (bclamp b) &&
      ((List.range 14).all fun i => if i + 1 < n then (thr b i).isFinite else Image.field b (8 + 4 * i) 4 == 0) &&
      ((List.range 13).all fun i => !decide (i + 2 < n) || FVal.lt (thr b i) (thr b (i + 1))) &&
      ((List.range 15).all fun i => if i < n then (step b i).isFinite else Image.field b (0x40 + 4 * i) 4 == 0) &&
      Image.field b 0x7C 4 == 0
  else Image.field b 0 128 == 0

/-- The tables image is valid (R229). -/
def valid (r : Image) : Bool :=
  let n := nlayer r
  Image.field r 0 4 == 0x31545452 && decide (1 ≤ n) && decide (n ≤ 4096) && r.length == 0x428 + 32 * n &&
    decide (nbtab r ≤ 8) && Image.field r 7 1 == 0 && stateAt r % 64 == 0 && Image.field r 0x10 16 == 0 &&
    Image.field r (0x420 + 32 * n) 8 == (crc64 (r.take (0x420 + 32 * n))).toNat &&
    ((List.range 8).all fun b => btabValid r b) && (List.range n).all fun l => layerValid r l

end Route

namespace State

def routeAt (s : State) (a : Nat) : Image := s.rdBytes a (0x428 + 32 * s.rdNat (a + 4) 2)

/-! ### The routing state (R228 to R230) -/

def rblk (base l : Nat) : Nat := base + 0x40 + 0x4040 * l
def rbias (base l e : Nat) : Nat := rblk base l + 0x40 + 4 * e
def racc (base l e : Nat) : Nat := rblk base l + 0x1040 + 8 * e
def rstep (base l e : Nat) : Nat := rblk base l + 0x3040 + 4 * e
def routeLen (n : Nat) : Nat := 0x48 + 0x4040 * n

/-- The routing state is valid (R229). -/
def routeStateValid (s : State) (r : Image) : Bool :=
  let base := Route.stateAt r
  let n := Route.nlayer r
  s.inDdr base (routeLen n) && s.rdNat base 4 == 0x31535452 && s.rdNat (base + 4) 2 == n && s.rdNat (base + 6) 58 == 0 &&
    s.rdNat (base + 0x40 + 0x4040 * n) 8 == (crc64 (s.rdBytes base (0x40 + 0x4040 * n))).toNat &&
    (List.range n).all fun l =>
      let e := Route.layer r l
      let bt := Route.btabNo e
      decide (s.rdNat (rblk base l) 2 < Route.period e) && decide (s.rdNat (rblk base l + 2) 1 < 2) &&
        s.rdNat (rblk base l + 3) 61 == 0 &&
        (List.range 1024).all fun x =>
          let b := Fmt.b32.decode (s.rdNat (rbias base l x) 4)
          s.rdNat (rstep base l x) 4 == 0 &&
            (if Route.nexp e ≤ x then s.rdNat (rbias base l x) 4 == 0 && s.rdNat (racc base l x) 8 == 0
            else if bt = 0xFF then b.isZero
            else b.isFinite && FVal.le b.abs (Route.bclamp (Route.btab r bt)))

/-- Recompute the CHECK of the routing state. -/
def routeCheck (s : State) (r : Image) : State :=
  let base := Route.stateAt r
  let n := Route.nlayer r
  s.wrNat (base + 0x40 + 0x4040 * n) 8 (crc64 (s.rdBytes base (0x40 + 0x4040 * n))).toNat

/-- At launch, layers without history start from zero (R230). -/
def routeFirst (s : State) (r : Image) : State :=
  let base := Route.stateAt r
  let s := (List.range (Route.nlayer r)).foldl (fun s l =>
    if s.rdNat (rblk base l + 2) 1 % 2 = 1 then s
    else ((s.wrNat (rblk base l) 2 0).wrBytes (rbias base l 0) (List.replicate 4096 0)).wrBytes (racc base l 0)
      (List.replicate 8192 0)) s
  s.routeCheck r

def routeImage (s : State) : Image := match s.job with
  | some j => j.route.getD []
  | none => []

end State

/-! ### Candidate lists (R231) -/

def mix (x : W64) : W64 :=
  let x := (x ^^^ (x >>> 30)) * 0xBF58476D1CE4E5B9#64
  let x := (x ^^^ (x >>> 27)) * 0x94D049BB133111EB#64
  x ^^^ (x >>> 31)

/-- The first expert from e on that the list does not hold: at most `fuel` steps. -/
def nextFree (n : Nat) (l : List Nat) : Nat → Nat → Nat
  | 0, e => e
  | fuel + 1, e => if l.contains e then nextFree n l fuel ((e + 1) % n) else e

def candGo (n : Nat) : Nat → W64 → List Nat → List Nat
  | 0, _, l => l
  | c + 1, h, l =>
    let h := mix (h + 0x9E3779B97F4A7C15#64)
    candGo n c h (l ++ [nextFree n l n (h.toNat / 2 ^ 32 * n / 2 ^ 32)])

/-- The NC candidates of a key, in hash order. -/
def candidates (e : Image) (key : W64) : List Nat := candGo (Route.nexp e) (Route.nc e) (mix (key ^^^ Route.lkey e)) []

/-- Rank positions 0 to n - 1 by descending value: ties and NaNs in the order given, NaNs last (R233). -/
def rankBy (v : List FVal) : List Nat :=
  let rec insert (i : Nat) : List Nat → List Nat
    | [] => [i]
    | j :: l =>
      let x := v.getD i .nan
      let y := v.getD j .nan
      if !x.isNaN && (y.isNaN || FVal.lt y x) then i :: j :: l else j :: insert i l
  (List.range v.length).foldl (fun l i => insert i l) []

/-! ### Call blocks (R237, R238) -/

structure CallBlock where
  layer : Nat
  t : Nat
  choice : Nat
  disp : Nat
  slots : Nat
  loads : Nat
  cap : Nat
  sstr : Nat
  status : Nat
  deriving DecidableEq, Repr

namespace State

def callBlock (s : State) (a : Nat) : CallBlock :=
  { layer := s.rdNat a 2, t := s.rdNat (a + 4) 4, choice := s.rdNat (a + 8) 8, disp := s.rdNat (a + 0x10) 8,
    slots := s.rdNat (a + 0x18) 8, loads := s.rdNat (a + 0x20) 8, cap := s.rdNat (a + 0x28) 4,
    sstr := s.rdNat (a + 0x2C) 4, status := s.rdNat (a + 0x34) 4 }

/-- The arrays of a call: start and length. -/
def callArrays (e : Image) (b : CallBlock) : List (Nat × Nat) :=
  [(b.choice, b.t * Route.rs e), (b.disp, b.t * 64), (b.slots, Route.nexp e * Route.sstr (Route.cap e b.t)),
    (b.loads, Route.nexp e * 16)]

def blockAddrBad (s : State) (a : Nat) : Bool := a % 64 != 0 || !s.inDdr a 64

/-- Cause 0x54 (R237, R251). -/
def callBad (s : State) (a : Nat) (e : Image) (b : CallBlock) : Bool :=
  b.t == 0 || decide (2 ^ 20 < b.t) || s.rdNat (a + 2) 2 != 0 || s.rdNat (a + 0x38) 8 != 0 ||
    (callArrays e b).any (fun x => x.1 % 64 != 0 || !s.inDdr x.1 x.2) || !disjoint (callArrays e b)

end State

/-- A routing instruction: all are write-class. -/
def routeOp (p : TileId) (word : W64) (reads : List (BitVec 5)) (checks : List Check) (held : Bool)
    (effect : State → State) : TileOp := TileOp.mk p word 8 reads checks held true effect

/-! ### RSEL (R233 to R236) -/

/-- The choice record of one token: its ranked candidates with their raw scores. -/
def choiceBytes (t layer nc : Nat) (l : List (Nat × Nat)) (size : Nat) : List Byte :=
  let body := leBytes t 4 ++ leBytes layer 2 ++ leBytes nc 1 ++ [0] ++ l.flatMap (fun x => leBytes x.1 2) ++
    l.flatMap fun x => leBytes x.2 4
  body ++ List.replicate (size - body.length) 0

/-- The biases of a layer as its routing front has them (R235): the front's copy if it is of that layer, else those of the routing
state. -/
def State.frontBias (s : State) (p : TileId) (base layer nexp : Nat) : List Nat := match (s.tile p).rtf.bias with
  | some b => if b.1 = layer then b.2 else (List.range nexp).map fun x => s.rdNat (State.rbias base layer x) 4
  | none => (List.range nexp).map fun x => s.rdNat (State.rbias base layer x) 4

/-- The bytes of the routing state that a front fetches for a layer: none where it has that layer's biases. -/
def State.biasReads (s : State) (p : TileId) (base layer nexp : Nat) : List Nat :=
  if (s.tile p).rtf.bias.any fun b => b.1 == layer then [] else (List.range (4 * nexp)).map (State.rbias base layer 0 + ·)

/-- One token through the routing front: its ranked candidates and their raw scores as binary32 codes, a BF16 score's decoded
exactly, a NaN's bits as they are. -/
def State.rankToken (s : State) (p : TileId) (w : Window) (t : EType) (bias : List Nat) (e : Image) (key : W64)
    (i : Nat) : List (Nat × Nat) :=
  let cand := candidates e key
  let raw := cand.map fun x => s.rdElem p t w x i
  let v := List.zipWith (fun x r => rne64 (FVal.add r (Fmt.b32.decode (bias.getD x 0)))) cand raw
  (rankBy v).map fun j =>
    let x := cand.getD j 0
    let code := s.rdCode p t w x i
    (x, if w.desc.etype = 0x0C then code * 65536 else code)

/-- The scores of the candidates of one token as single-element windows (R233). -/
def scoreWindows (w : Window) (e : Image) (key : W64) (i : Nat) : List Window :=
  (candidates e key).map fun x => { w with a := x, b := i, len0 := 1, len1 := 1 }

/-- The 64-byte accesses that read one token's scores, in candidate order. (DESIGN CHOICE, log 48). -/
def scoreAccesses (t : EType) (l : List Window) : Nat :=
  countRuns (l.flatMap fun w => (w.spaceBytes t w.a w.b).map (· / 64))

def opRsel (p : TileId) (ds : BitVec 4) (rs : BitVec 3) (sk sa sc : BitVec 5) (rsv : BitVec 36) (s : State) : TileOp :=
  let t := s.tile p
  let a := (t.reg sc).toNat
  let koff := lo32 (t.reg sk)
  let t0 := lo32 (t.reg sa)
  let nt := hi32 (t.reg sa)
  let r := s.routeImage
  let b := s.callBlock a
  let e := Route.layer r b.layer
  let o := t.operand ds rs false 0 0 (Route.nexp e) nt
  let dark := s.poisonIn a 64
  (routeOp p (Layout.rsel ds rs sk sa sc rsv) [sk, sa, sc]
    ([chkRsv (rsv != 0)] ++ operandChecks t [o] ++
      [{ bad := hi32 (t.reg sk) != 0 || nt == 0 || decide (4096 < nt), cause := 0x50 },
        { bad := !s.blockAddrBad a && !dark && decide (b.t < t0 + nt), cause := 0x50, late := true },
        { bad := s.blockAddrBad a || koff % 8 != 0 || decide (sramBytes < koff + 8 * nt), cause := 0x51 },
        { bad := r.isEmpty, cause := 0x52 }, { bad := !dark && decide (Route.nlayer r ≤ b.layer), cause := 0x52, late := true },
        { bad := !o.typeOk s (fun c _ => c == 0x0C || c == 0x0E), cause := 0x53 },
        { bad := !dark && !o.inside, cause := 0x53, late := true },
        { bad := s.callBad a e b && !dark, cause := 0x54, late := true }]) (o.busy t) fun s =>
      if dark then s.readByTile p ((List.range 64).map (a + ·)) else
      match o.win with
      | some w => match s.etype w.desc.etype with
        | some ty =>
          let base := Route.stateAt r
          let size := Route.rs e
          let bias := s.frontBias p base b.layer (Route.nexp e)
          let key (i : Nat) : W64 := BitVec.ofNat 64 (s.rdNat (sramBase p.1 + koff + 8 * i) 8)
          let recs := (List.range nt).map fun i =>
            choiceBytes (t0 + i) b.layer (Route.nc e) (s.rankToken p w ty bias e (key i) i) size
          let scores := (List.range nt).map fun i => scoreWindows w e (key i) i
          let racc := if o.arms then (scores.map (scoreAccesses ty)).foldl (· + ·) 0 else 0
          let s1 := s.wrBytes (b.choice + t0 * size) (recs.flatMap id)
          let s2 := s1.thenTile p fun u =>
            { u with rtf := { u.rtf with layer := BitVec.ofNat 12 b.layer, tokens := satAdd32 u.rtf.tokens nt,
                                         bias := some (b.layer, bias) },
                     strm := { u.strm with racc := u.strm.racc + BitVec.ofNat 32 racc } }
          s2.tilePoison p (s.poisonedLines ((List.range 64).map (a + ·) ++
            (scores.flatMap id).flatMap (fun x => x.readBytes p ty) ++ s.biasReads p base b.layer (Route.nexp e)))
        | none => s
      | none => s).named (.rsel p ds rs sk sa sc rsv) t [o] (s.portStalled p)

def execRsel (p : TileId) (ds : BitVec 4) (rs : BitVec 3) (sk sa sc : BitVec 5) (rsv : BitVec 36) (s : State) :
    Host.Outcome State Fault Refusal := s.run (opRsel p ds rs sk sa sc rsv s)

/-! ### RASSIGN and the assigner (R237 to R245) -/

/-- RASSIGN: the call joins the calls, of which the first sixteen are the assigner's queue and the others wait at the heads of the PORT
queues of their tiles (R243, R244). (DEDUCED, log 39). -/
def opRassign (p : TileId) (sc : BitVec 5) (ev : Bool) (t : BitVec 6) (rsv : BitVec 46) (s : State) : TileOp :=
  let x := s.tile p
  let a := (x.reg sc).toNat
  let word := Layout.rassign sc ev t rsv
  (routeOp p word [sc]
    [chkRsv (rsv != 0), { bad := s.blockAddrBad a, cause := 0x51 }, { bad := s.routeImage.isEmpty, cause := 0x52 }]
    false
    fun s =>
      let n := x.issueNo + 1
      let s := s.modTile p fun y => { y with portWork := y.portWork ++ [n] }
      { s with rtu := { s.rtu with calls := s.rtu.calls ++ [⟨p, n, a, ev, t, x.pc.truncate 48, word⟩] } }).inPort
    (.rassign p sc ev t rsv) none (s.portStalled p)

def execRassign (p : TileId) (sc : BitVec 5) (ev : Bool) (t : BitVec 6) (rsv : BitVec 46) (s : State) :
    Host.Outcome State Fault Refusal := s.run (opRassign p sc ev t rsv s)

/-- The state of an assignment: loads and skips by expert, slots (expert, entry), null choices and skips. -/
structure Assign where
  load : List Nat
  overflow : List Nat
  slots : List (Nat × Nat)
  disp : List (List (Option (Nat × Nat × Nat × Nat)))
  deriving Repr

/-- Skip full experts: the first position from `pos` with room, and the skips (R239). -/
def skipFull (ids load : List Nat) (c : Nat) : Nat → Nat → List Nat → Nat × List Nat
  | 0, pos, overflow => (pos, overflow)
  | n + 1, pos, overflow =>
    match ids[pos]? with
    | none => (pos, overflow)
    | some e => if c ≤ load.getD e 0 then skipFull ids load c n (pos + 1) (overflow.set e (overflow.getD e 0 + 1)) else (pos, overflow)

/-- All K choices of one token: expert, position, slot and raw score, or null. -/
def assignToken (c k t : Nat) (ids raws : List Nat) (a : Assign) : Assign :=
  let go := (List.range k).foldl (fun (x : Nat × Assign × List (Option (Nat × Nat × Nat × Nat))) r =>
    let (pos, a, out) := x
    let (pos, overflow) := skipFull ids a.load c ids.length pos a.overflow
    match ids[pos]? with
    | none => (pos, { a with overflow := overflow }, out ++ [none])
    | some e =>
      let l := a.load.getD e 0
      (pos + 1, { a with overflow := overflow, load := a.load.set e (l + 1), slots := a.slots ++ [(e, t + 2 ^ 20 * r)] },
        out ++ [some (e, pos, l, raws.getD pos 0)])) (0, a, [])
  { go.2.1 with disp := go.2.1.disp ++ [go.2.2] }

/-- Divide, rounded once, RNE, to binary32. -/
def div32 (a b : FVal) : Nat := ((fDiv a b).conv (.flt Fmt.b32) .rne 0).code

/-- The gate weights of a token's choices (R241): binary32 codes in choice order. -/
def gates (gmode : Nat) (raws : List (Option Nat)) : List Nat :=
  let vals := raws.map fun x => x.map Fmt.b32.decode
  let live := vals.filterMap id
  if live.any (·.isNaN) then raws.map fun x => match x with
    | some _ => (b32Bits .nan).toNat
    | none => 0
  else if gmode = 0 then raws.map fun x => x.getD 0
  else
    let m := live.foldl (fun a v => if FVal.lt a v then v else a) (live.headD FVal.zero)
    let weight (v : FVal) : FVal :=
      if gmode = 2 then curveFn none 0x07 v
      else if FVal.eq v m then FVal.one else curveFn none 0x09 (rne64 (FVal.sub v m))
    let sum := live.foldl (fun a v => rne64 (FVal.add a (weight v))) FVal.zero
    vals.map fun x => match x with
      | some v => div32 (weight v) sum
      | none => 0

/-- The 64 bytes of a token dispatch record (R242). -/
def dispBytes (t k gmode : Nat) (l : List (Option (Nat × Nat × Nat × Nat))) : List Byte :=
  let g := gates gmode (l.map fun x => x.map fun y => y.2.2.2)
  let one (r : Nat) : List Byte := match l.getD r none with
    | some (e, pos, slot, _) => leBytes e 2 ++ leBytes pos 1 ++ [0] ++ leBytes slot 4 ++ leBytes (g.getD r 0) 4
    | none => leBytes 0xFFFF 2 ++ leBytes 0xFF 1 ++ [0] ++ leBytes 0xFFFFFFFF 4 ++ leBytes 0 4
  leBytes t 4 ++ leBytes k 1 ++ leBytes (l.filter (·.isNone)).length 1 ++ leBytes 0 2 ++
    (List.range 4).flatMap one ++ leBytes 0 8

/-- The count scale of an expert (R242). -/
def countScale (mode t k nexp load : Nat) : Nat :=
  let n (x : Nat) : FVal := .fin false x 0
  if load = 0 then 0
  else match mode with
    | 0 => (b32Bits FVal.one).toNat
    | 1 => div32 FVal.one (n load)
    | _ => div32 (n (t * k)) (n (nexp * load))

/-- A choice record as the assigner reads it: NC identifiers and raw scores; none for cause 0x55. -/
def State.choiceOf (s : State) (e : Image) (b : CallBlock) (t : Nat) : Option (List Nat × List Nat) :=
  let a := b.choice + t * Route.rs e
  let nc := Route.nc e
  let ids := (List.range nc).map fun j => s.rdNat (a + 8 + 2 * j) 2
  let raws := (List.range nc).map fun j => s.rdNat (a + 8 + 2 * nc + 4 * j) 4
  if s.rdNat a 4 = t ∧ s.rdNat (a + 4) 2 = b.layer ∧ s.rdNat (a + 6) 1 = nc ∧ (ids.all fun i => decide (i < Route.nexp e)) ∧
      ids.eraseDups.length = nc then some (ids, raws)
  else none

/-- The slot array: assigned slots, then all ones to C, then zero to the stride (bytes beyond 4C stay). (DEDUCED, log 53). -/
def State.writeSlots (s : State) (b : CallBlock) (nexp c : Nat) (slots : List (Nat × Nat)) : State :=
  (List.range nexp).foldl (fun s e =>
    let mine := (slots.filter fun x => x.1 == e).map (·.2)
    s.wrBytes (b.slots + e * Route.sstr c)
      ((mine ++ List.replicate (c - mine.length) 0xFFFFFFFF).flatMap fun x => leBytes x 4)) s

/-- The assigner serves the call at the head of its queue (R239 to R244). (DEDUCED, log 53). -/
def execAssignCall (s : State) : Host.Outcome State Fault Refusal :=
  match s.rtu.calls with
  | [] => .next s
  | q :: rest =>
    let s := { s with rtu := { s.rtu with calls := rest } }
    let r := s.routeImage
    let b := s.callBlock q.block
    let e := Route.layer r b.layer
    let fault (s : State) (cause : Byte) : Host.Outcome State Fault Refusal :=
      .next ((s.rtuErr q.p cause).programFaultAt q.p cause q.pc q.word)
    if s.poisonIn q.block 64 then .next (s.readByModule ((List.range 64).map (q.block + ·)))
    else if Route.nlayer r ≤ b.layer then fault s 0x52
    else if s.callBad q.block e b then fault s 0x54
    else
      let nexp := Route.nexp e
      let c := Route.cap e b.t
      let recs := (List.range b.t).map (s.choiceOf e b)
      let dead : List Nat := ((State.callArrays e b).drop 1).flatMap (fun x => (List.range x.2).map (x.1 + ·)) ++
        (List.range 12).map (q.block + 0x28 + ·)
      let reads := (List.range 64).map (q.block + ·) ++ (List.range (b.t * Route.rs e)).map (b.choice + ·)
      if recs.any (·.isNone) then
        let s1 := (s.scramble dead).wrNat (q.block + 0x34) 4 0
        if s.poisonedLines reads = [] then fault s1 0x55 else .next (s1.modulePoison (s.poisonedLines reads))
      else
        let zero : Assign := ⟨List.replicate nexp 0, List.replicate nexp 0, [], []⟩
        let a := recs.zipIdx.foldl (fun a x => match x.1 with
          | some y => assignToken c (Route.k e) x.2 y.1 y.2 a
          | none => a) zero
        let nulls := ((a.disp.map fun l => (l.filter (·.isNone)).length).foldl (· + ·) 0)
        let choices := a.slots.length
        let skips := a.overflow.foldl (· + ·) 0
        let s1 := s.wrBytes b.disp (a.disp.zipIdx.flatMap fun x => dispBytes x.2 (Route.k e) (Route.gmode e) x.1)
        let s2 := s1.writeSlots b nexp c a.slots
        let s3 := s2.wrBytes b.loads ((List.range nexp).flatMap fun i =>
          leBytes (a.load.getD i 0) 4 ++ leBytes (a.overflow.getD i 0) 4 ++
            leBytes (countScale (Route.cscale e) b.t (Route.k e) nexp (a.load.getD i 0)) 4 ++ leBytes 0 4)
        let s4 := (((s3.wrNat (q.block + 0x28) 4 c).wrNat (q.block + 0x2C) 4 (Route.sstr c)).wrNat (q.block + 0x30) 4
          nulls).wrNat (q.block + 0x34) 4 1
        let base := Route.stateAt r
        let total (i : Nat) : Nat := s4.rdNat (State.rstep base b.layer i) 4 + a.load.getD i 0
        let sat := !q.ev && (List.range nexp).any fun i => decide (2 ^ 32 ≤ total i)
        let s5 := if q.ev then s4 else (List.range nexp).foldl (fun x i =>
          x.wrNat (State.rstep base b.layer i) 4 (min (total i) 0xFFFFFFFF)) s4
        let s6 := { s5 with rtu := { s5.rtu with
          stepSat := s5.rtu.stepSat || sat, done := s5.rtu.done + 1, choices := satAdd32 s5.rtu.choices choices,
          nulls := satAdd32 s5.rtu.nulls nulls, skips := satAdd32 s5.rtu.skips skips,
          evcalls := satAdd32 s5.rtu.evcalls (if q.ev then 1 else 0) } }
        let s7 := s6.modTile q.p fun t => { t with portWork := t.portWork.filter (· != q.issueNo) }
        .next ((s7.addTally q.p q.t 1).modulePoison (s.poisonedLines reads))

/-! ### RXCH (R246 to R248) -/

/-- One row of a descriptor's view as a window. -/
def Operand.row (o : Operand) (r : Nat) : Option Window := match o.win with
  | some w => some { w with a := 0, b := r, len0 := w.desc.view0, len1 := 1 }
  | none => none

/-- What an RXCH names and reads. -/
structure Exchange where
  fn : Nat
  ds : Operand
  dd : Operand
  da : Option Operand
  block : Nat
  lo : Nat
  first : Nat
  n : Nat
  gw : Bool
  rnd : BitVec 2

namespace State

/-- The gate and the expert of choice r of token t in the dispatch record. -/
def dispGate (s : State) (b : CallBlock) (t r : Nat) : FVal := s.rdB32 (b.disp + 64 * t + 0x10 + 12 * r)
def dispNull (s : State) (b : CallBlock) (t r : Nat) : Bool := s.rdNat (b.disp + 64 * t + 0x08 + 12 * r) 2 == 0xFFFF

/-- The live slots of a GATHER or SCATTER: slot offset from s0, token, choice. -/
def liveSlots (s : State) (b : CallBlock) (e s0 n : Nat) : List (Nat × Nat × Nat) :=
  let load := s.rdNat (b.loads + 16 * e) 4
  ((List.range n).filter fun i => decide (s0 + i < load)).map fun i =>
    let x := s.rdNat (b.slots + e * b.sstr + 4 * (s0 + i)) 4
    (i, x % 2 ^ 20, x / 2 ^ 20 % 4)

/-- Rows moved by a form: destination row, and the terms of source row and gate that are added; `none` in place of terms
marks a plain row. -/
def rowsOf (s : State) (x : Exchange) (b : CallBlock) (k : Nat) : List (Nat × List (Nat × FVal)) :=
  match x.fn with
  | 0 => (s.liveSlots b x.lo x.first x.n).map fun y =>
      (y.1, [(y.2.1, if x.gw then s.dispGate b y.2.1 y.2.2 else FVal.one)])
  | 1 => (s.liveSlots b x.lo x.first x.n).map fun y =>
      (y.2.1 * k + y.2.2, [(y.1, if x.gw then s.dispGate b y.2.1 y.2.2 else FVal.one)])
  | _ => (List.range x.n).map fun i =>
      let t := x.lo + i
      (i, ((List.range k).filter fun r => !s.dispNull b t r).map fun r =>
        (t * k + r, if x.gw then s.dispGate b t r else FVal.one))

/-- The elements of GGRAD that are formed: choice, token offset and source row; none for a null choice. -/
def gradOf (s : State) (x : Exchange) (b : CallBlock) (k : Nat) : List (Nat × Nat × Option Nat) :=
  (List.range x.n).flatMap fun i => (List.range k).map fun r =>
    (r, i, if s.dispNull b (x.lo + i) r then none else some ((x.lo + i) * k + r))

/-- Cause 0x53 (R247, R251). The rows that the dispatch record names can be checked only once it is assigned: cause 0x57 else.
(DEDUCED, log 53). -/
def exchBad53 (s : State) (x : Exchange) (b : CallBlock) (k : Nat) : Bool :=
  let ops := [x.ds] ++ x.da.toList ++ (if x.fn = 3 then [] else [x.dd])
  let f : Nat := match x.ds.win with
    | some w => w.desc.view0
    | none => 0
  let typeBad := (ops ++ [x.dd]).any fun o => !o.typeOk s fun c t => floatType c && t.block == 0
  let extentBad := ops.any fun o => match o.win with
    | some w => w.desc.view0 != f
    | none => false
  let rowsIn (o : Operand) (r : Nat) : Bool := match o.win with
    | some w => decide (r < w.desc.view1)
    | none => true
  if x.fn = 3 then
    typeBad || extentBad || !x.dd.typeIs 0x0E || (match x.dd.win with
      | some w => w.desc.view0 != k
      | none => false) || !rowsIn x.dd (x.n - 1) || !(x.da.toList.all fun o => rowsIn o (x.n - 1)) ||
      b.status == 1 && !((s.gradOf x b k).all fun y => match y.2.2 with
        | some r => rowsIn x.ds r
        | none => true)
  else
    typeBad || extentBad || b.status == 1 && !((s.rowsOf x b k).all fun y => rowsIn x.dd y.1 && y.2.all fun z => rowsIn x.ds z.1)

/-- The bytes of the dispatch record that a form reads, with the call block; slots at or above LOAD are not read. -/
def recordReads (s : State) (x : Exchange) (b : CallBlock) : List Nat :=
  let bytes (a n : Nat) : List Nat := (List.range n).map (a + ·)
  bytes x.block 64 ++
    if x.fn < 2 then bytes (b.loads + 16 * x.lo) 16 ++ bytes (b.slots + x.lo * b.sstr + 4 * x.first)
      (4 * min x.n (s.rdNat (b.loads + 16 * x.lo) 4 - x.first))
    else bytes (b.disp + 64 * x.lo) (64 * x.n)

/-- The dispatch records of the tokens of a gated GATHER or SCATTER. -/
def gateReads (s : State) (x : Exchange) (b : CallBlock) : List Nat :=
  if x.fn < 2 ∧ x.gw then
    (s.liveSlots b x.lo x.first x.n).flatMap fun y => (List.range 64).map (b.disp + 64 * y.2.1 + ·)
  else []

/-- The call block or what the form reads of the dispatch record holds an uncorrectable access: a hardware fault, and no check of
the values (R258). -/
def exchangeDark (s : State) (x : Exchange) (b : CallBlock) : Bool :=
  s.poisoned != [] && (s.poisonIn x.block 64 || !(s.poisonedLines (s.recordReads x b ++ s.gateReads x b)).isEmpty)

/-- Count the accesses of one window of an operand. -/
def countRow (s : State) (p : TileId) (o : Operand) (r : Nat) : State :=
  if !o.arms then s
  else match o.row r with
    | some w => match s.etype w.desc.etype with
      | some t => s.modTile p fun u =>
          { u with strm := if o.write then { u.strm with wacc := u.strm.wacc + BitVec.ofNat 32 (w.accesses t true) }
                           else { u.strm with racc := u.strm.racc + BitVec.ofNat 32 (w.accesses t false) } }
      | none => s
    | none => s

/-- Move the rows of GATHER, SCATTER or COMBINE. -/
def exchangeRows (s : State) (p : TileId) (x : Exchange) (b : CallBlock) (k : Nat) : State :=
  match x.ds.win, x.dd.win with
  | some ws, some wd =>
    match s.etype ws.desc.etype, s.etype wd.desc.etype with
    | some ts, some td =>
      let rows := s.rowsOf x b k
      let plain := x.fn != 2 && !x.gw && ws.desc.etype == wd.desc.etype
      let code (l : List (Nat × FVal)) (f : Nat) : Nat :=
        if plain then s.rdCode p ts ws f (l.headD (0, FVal.one)).1
        else
          let term (y : Nat × FVal) : FVal := FVal.mul y.2 (s.rdElem p ts ws f y.1)
          let v := if x.fn = 2 then l.foldl (fun a y => rne64 (FVal.add a (term y))) FVal.zero
            else match l with
              | y :: _ => term y
              | [] => FVal.zero
          (td.kind.conv (Rnd.ofCode x.rnd) 0 v).code
      let n := wd.desc.view0
      let out := rows.flatMap fun y => (List.range n).map fun f => (y.1, f, code y.2 f)
      let bad := (out.filter fun y => (td.decode 0 y.2.2).nonFinite).length
      let s1 := (out.foldl (fun s2 y => s2.wrCode p td wd y.2.1 y.1 y.2.2) s)
      let s2 := s1.modTile p fun u => { u with rtf := { u.rtf with nonfin := satAdd32 u.rtf.nonfin bad } }
      let s3 := rows.foldl (fun s2 y => (y.2.foldl (fun s2 z => s2.countRow p x.ds z.1) s2).countRow p x.dd y.1) s2
      let reads := (rows.flatMap fun y => y.2.flatMap fun z => match x.ds.row z.1 with
        | some w => w.readBytes p ts
        | none => []) ++ s.recordReads x b ++ s.gateReads x b
      (rows.foldl (fun s2 y => match x.dd.row y.1 with
        | some w => s2.settleWrites p td w
        | none => s2) s3).tilePoison p (s.poisonedLines reads)
    | _, _ => s
  | _, _ => s

/-- Form the gate gradients of GGRAD. -/
def exchangeGrad (s : State) (p : TileId) (x : Exchange) (b : CallBlock) (k : Nat) : State :=
  match x.ds.win, x.dd.win, x.da with
  | some ws, some wd, some { win := some wa, .. } =>
    match s.etype ws.desc.etype, s.etype wd.desc.etype, s.etype wa.desc.etype with
    | some ts, some td, some ta =>
      let l := s.gradOf x b k
      let f := ws.desc.view0
      let value (i : Nat) (r : Option Nat) : FVal := match r with
        | some r => dotTotal FVal.zero ((List.range f).map fun j =>
            FVal.mul (s.rdElem p ta wa j i) (s.rdElem p ts ws j r))
        | none => FVal.zero
      let out := l.map fun y => (y.1, y.2.1, (td.kind.conv (Rnd.ofCode x.rnd) 0 (value y.2.1 y.2.2)).code)
      let bad := (out.filter fun y => (td.decode 0 y.2.2).nonFinite).length
      let s1 := out.foldl (fun s2 y => s2.wrCode p td wd y.1 y.2.1 y.2.2) s
      let s2 := s1.modTile p fun u => { u with rtf := { u.rtf with nonfin := satAdd32 u.rtf.nonfin bad } }
      let s3 := l.foldl (fun s2 y => match y.2.2 with
        | some r => s2.countRow p x.ds r
        | none => s2) s2
      let s4 := (List.range x.n).foldl (fun s2 i => (match x.da with
        | some o => s2.countRow p o i
        | none => s2).countRow p x.dd i) s3
      let reads := (l.flatMap fun y => match y.2.2 with
        | some r => match x.ds.row r with
          | some w => w.readBytes p ts
          | none => []
        | none => []) ++ ((List.range x.n).flatMap fun i => ({ wa with a := 0, b := i, len0 := f, len1 := 1 } : Window).readBytes p ta) ++
        s.recordReads x b
      (s4.settleWrites p td { wd with a := 0, b := 0, len0 := k, len1 := x.n }).tilePoison p (s.poisonedLines reads)
    | _, _, _ => s
  | _, _, _ => s

end State

/-- The four forms of RXCH (R246, R251). -/
def rxchOp (s : State) (p : TileId) (fn : Nat) (i : Instr) (word : W64) (ds : BitVec 4) (rs : BitVec 3) (dd : BitVec 4)
    (ws : BitVec 3) (da : BitVec 4) (ra : BitVec 3) (sc sa sb : BitVec 5) (gw : Bool) (rnd : BitVec 2) (rsv : Bool) : TileOp :=
  let t := s.tile p
  let a := (t.reg sc).toNat
  let r := s.routeImage
  let b := s.callBlock a
  let e := Route.layer r b.layer
  let k := Route.k e
  let slots := decide (fn < 2)
  let whole (h : BitVec 4) (q : BitVec 3) (w : Bool) : Operand :=
    let o := t.operand h q w 0 0 0 0
    { o with win := match o.win with
        | some x => some { x with len0 := x.desc.view0, len1 := x.desc.view1 }
        | none => none }
  let x : Exchange :=
    { fn := fn, ds := whole ds rs false, dd := whole dd ws true, da := if fn = 3 then some (whole da ra false) else none,
      block := a, lo := lo32 (t.reg sa), first := if slots then hi32 (t.reg sa) else 0, n := lo32 (t.reg sb), gw := gw,
      rnd := rnd }
  let ops := [x.ds, x.dd] ++ x.da.toList
  let noLayer := !s.poisonIn a 64 && decide (Route.nlayer r ≤ b.layer)
  let dark := s.exchangeDark x b
  let late50 := !s.blockAddrBad a && !dark && !r.isEmpty && !noLayer &&
    (if slots then decide (Route.nexp e ≤ x.lo) || decide (b.cap < x.first + x.n) else decide (b.t < x.lo + x.n))
  (routeOp p word [sc, sa, sb]
    ([chkRsv rsv] ++ operandChecks t ops ++
      [{ bad := x.n == 0 || hi32 (t.reg sb) != 0 || (!slots && hi32 (t.reg sa) != 0), cause := 0x50 },
        { bad := late50, cause := 0x50, late := true }, { bad := s.blockAddrBad a, cause := 0x51 },
        { bad := r.isEmpty, cause := 0x52 }, { bad := noLayer, cause := 0x52, late := true },
        { bad := !dark && s.exchBad53 x b k, cause := 0x53, late := true },
        { bad := !dark && s.callBad a e b, cause := 0x54, late := true },
        { bad := rnd == 3 || (gw && fn == 3) || (fn != 3 && (da != 0 || ra != 0)), cause := 0x56 },
        { bad := !dark && b.status != 1, cause := 0x57, late := true }])
    (ops.any fun o => o.busy t) fun s =>
      if dark then s.readByTile p (s.recordReads x b ++ s.gateReads x b)
      else if fn = 3 then s.exchangeGrad p x b k else s.exchangeRows p x b k).named i t ops (s.portStalled p)

/-- RXCH fn 0: slot rows of an expert from token rows. -/
def opGather (p : TileId) (ds : BitVec 4) (rs : BitVec 3) (dd : BitVec 4) (ws : BitVec 3) (da : BitVec 4)
    (ra : BitVec 3) (sc sa sb : BitVec 5) (gw : Bool) (rnd : BitVec 2) (rsv : BitVec 16) (s : State) : TileOp :=
  rxchOp s p 0 (.gather p ds rs dd ws da ra sc sa sb gw rnd rsv) (Layout.gather ds rs dd ws da ra sc sa sb gw rnd rsv) ds rs dd ws da ra sc sa sb gw rnd (rsv != 0)

def execGather (p : TileId) (ds : BitVec 4) (rs : BitVec 3) (dd : BitVec 4) (ws : BitVec 3) (da : BitVec 4)
    (ra : BitVec 3) (sc sa sb : BitVec 5) (gw : Bool) (rnd : BitVec 2) (rsv : BitVec 16) (s : State) :
    Host.Outcome State Fault Refusal := s.run (opGather p ds rs dd ws da ra sc sa sb gw rnd rsv s)

/-- RXCH fn 1: slot rows of an expert into the combine buffer. -/
def opScatter (p : TileId) (ds : BitVec 4) (rs : BitVec 3) (dd : BitVec 4) (ws : BitVec 3) (da : BitVec 4)
    (ra : BitVec 3) (sc sa sb : BitVec 5) (gw : Bool) (rnd : BitVec 2) (rsv : BitVec 16) (s : State) : TileOp :=
  rxchOp s p 1 (.scatter p ds rs dd ws da ra sc sa sb gw rnd rsv) (Layout.scatter ds rs dd ws da ra sc sa sb gw rnd rsv) ds rs dd ws da ra sc sa sb gw rnd (rsv != 0)

def execScatter (p : TileId) (ds : BitVec 4) (rs : BitVec 3) (dd : BitVec 4) (ws : BitVec 3) (da : BitVec 4)
    (ra : BitVec 3) (sc sa sb : BitVec 5) (gw : Bool) (rnd : BitVec 2) (rsv : BitVec 16) (s : State) :
    Host.Outcome State Fault Refusal := s.run (opScatter p ds rs dd ws da ra sc sa sb gw rnd rsv s)

/-- RXCH fn 2: the sum of a token's choices. -/
def opCombine (p : TileId) (ds : BitVec 4) (rs : BitVec 3) (dd : BitVec 4) (ws : BitVec 3) (da : BitVec 4)
    (ra : BitVec 3) (sc sa sb : BitVec 5) (gw : Bool) (rnd : BitVec 2) (rsv : BitVec 16) (s : State) : TileOp :=
  rxchOp s p 2 (.combine p ds rs dd ws da ra sc sa sb gw rnd rsv) (Layout.combine ds rs dd ws da ra sc sa sb gw rnd rsv) ds rs dd ws da ra sc sa sb gw rnd (rsv != 0)

def execCombine (p : TileId) (ds : BitVec 4) (rs : BitVec 3) (dd : BitVec 4) (ws : BitVec 3) (da : BitVec 4)
    (ra : BitVec 3) (sc sa sb : BitVec 5) (gw : Bool) (rnd : BitVec 2) (rsv : BitVec 16) (s : State) :
    Host.Outcome State Fault Refusal := s.run (opCombine p ds rs dd ws da ra sc sa sb gw rnd rsv s)

/-- RXCH fn 3: gate-weight gradients. -/
def opGgrad (p : TileId) (ds : BitVec 4) (rs : BitVec 3) (dd : BitVec 4) (ws : BitVec 3) (da : BitVec 4)
    (ra : BitVec 3) (sc sa sb : BitVec 5) (gw : Bool) (rnd : BitVec 2) (rsv : BitVec 16) (s : State) : TileOp :=
  rxchOp s p 3 (.ggrad p ds rs dd ws da ra sc sa sb gw rnd rsv) (Layout.ggrad ds rs dd ws da ra sc sa sb gw rnd rsv) ds rs dd ws da ra sc sa sb gw rnd (rsv != 0)

def execGgrad (p : TileId) (ds : BitVec 4) (rs : BitVec 3) (dd : BitVec 4) (ws : BitVec 3) (da : BitVec 4)
    (ra : BitVec 3) (sc sa sb : BitVec 5) (gw : Bool) (rnd : BitVec 2) (rsv : BitVec 16) (s : State) :
    Host.Outcome State Fault Refusal := s.run (opGgrad p ds rs dd ws da ra sc sa sb gw rnd rsv s)

/-! ### The bias loop (R250) -/

/-- The new bias of an expert with load `acc` of `total` among `nexp`. -/
def biasStep (b : Image) (nexp acc total : Nat) (old : FVal) : FVal :=
  let num : Int := (nexp * acc : Nat) - (total : Nat)
  let eps := div64 (FVal.ofInt num) (.fin false total 0)
  let i := ((List.range (Route.nbkt b - 1)).filter fun i => FVal.le (Route.thr b i) eps).length
  let v := rne32 (FVal.add old (Route.step b i))
  fMin (fMax v (Route.bclamp b).neg) (Route.bclamp b)

/-- One layer at a commit, with the domain sums of its STEP counts. -/
def State.biasLayer (s : State) (r : Image) (l : Nat) (vetoed : Bool) (sums : Nat → Nat) : State :=
  let base := Route.stateAt r
  let e := Route.layer r l
  let n := Route.nexp e
  let s1 := s.wrBytes (State.rstep base l 0) (List.replicate 4096 0)
  if Route.btabNo e = 0xFF ∨ vetoed then s1
  else
    let accs := (List.range n).map fun x => (s.rdNat (State.racc base l x) 8 + sums x) % 2 ^ 64
    let pc := s.rdNat (State.rblk base l) 2 + 1
    if pc ≠ Route.period e then
      (s1.wrBytes (State.racc base l 0) (accs.flatMap fun a => leBytes a 8)).wrNat (State.rblk base l) 2 pc
    else
      let total := accs.foldl (· + ·) 0
      let bt := Route.btab r (Route.btabNo e)
      let s2 :=
        if total = 0 then s1
        else s1.wrBytes (State.rbias base l 0) ((List.range n).flatMap fun x =>
          leBytes (b32Bits (biasStep bt n (accs.getD x 0) total (s.rdB32 (State.rbias base l x)))).toNat 4)
      ((s2.wrBytes (State.racc base l 0) (List.replicate (8 * n) 0)).wrNat (State.rblk base l) 2 0).wrNat
        (State.rblk base l + 2) 1 1

/-- The routing fronts of the launch fetch biases again after a commit (R235). -/
def State.dropBiases (s : State) : State :=
  s.jobTiles.foldl (fun x p => x.modTile p fun t => { t with rtf := { t.rtf with bias := none } }) s

/-- The bias loop of every layer; RTU_LOOP counts the layers whose bias changed. -/
def State.biasLoop (s : State) (r : Image) (vetoed : Bool) (sums : Nat → Nat → Nat) : State :=
  let base := Route.stateAt r
  let layers := List.range (Route.nlayer r)
  let s1 := layers.foldl (fun x l => x.biasLayer r l vetoed (sums l)) s
  let changed := (layers.filter fun l =>
    s1.rdBytes (State.rbias base l 0) 4096 != s.rdBytes (State.rbias base l 0) 4096).length
  { s1.routeCheck r with rtu := { s1.rtu with loopLayers := BitVec.ofNat 13 changed } }

end Sys2Proof.Machine
end

