-- ==== Sys2Proof/Machine/Steps.lean ====
section
/-!
DEFINITION. The step configuration, arrival, COMMIT messages, the veto gate and the evaluation that follows it (R129, R136,
R250, R279, R356 to R370, R387, R388). The evaluation is one event with the step commit.
-/
namespace Sys2Proof.Machine

/-! ### The step configuration (R356, R357) -/

namespace StepCfg

def flags (c : Image) : Nat := Image.field c 4 2
def restore (c : Image) : Bool := (flags c).testBit 0
def skipNewest (c : Image) : Bool := (flags c).testBit 1
def amberOn (c : Image) : Bool := (flags c).testBit 2
def store (c : Image) : Bool := (flags c).testBit 3
def nreg (c : Image) : Nat := Image.field c 6 1
def step0 (c : Image) : Nat := Image.field c 8 4
def hostT (c : Image) (off : Nat) : BitVec 6 := BitVec.ofNat 6 (Image.field c off 1)
def arriveT (c : Image) : BitVec 6 := hostT c 0x0C
def releaseT (c : Image) : BitVec 6 := hostT c 0x0D
def vetoT (c : Image) : BitVec 6 := hostT c 0x0E
def gateT (c : Image) : BitVec 6 := hostT c 0x10
def commitT (c : Image) : BitVec 6 := hostT c 0x11
def restoreT (c : Image) : BitVec 6 := hostT c 0x12
def arriveN (c : Image) : W32 := BitVec.ofNat 32 (Image.field c 0x14 4)
def releaseN (c : Image) : W32 := BitVec.ofNat 32 (Image.field c 0x18 4)
def commitMs (c : Image) : Nat := Image.field c 0x1C 2
def digestEvery (c : Image) : Nat := Image.field c 0x1E 2
def stepRec (c : Image) : Nat := Image.field c 0x20 8
def amber (c : Image) : Nat := Image.field c 0x28 8
def amberLen (c : Image) : Nat := Image.field c 0x30 8
def rspare (c : Image) : Nat := Image.field c 0x38 8
def rspareLen (c : Image) : Nat := Image.field c 0x40 8
def dlist (c : Image) : Nat := Image.field c 0x48 8
def ndl (c : Image) : Nat := Image.field c 0x50 2
def storeEvery (c : Image) : Nat := Image.field c 0x52 2
def region (c : Image) (r : Nat) : Nat × Nat := (Image.field c (0x60 + 16 * r) 8, Image.field c (0x68 + 16 * r) 8)
def regions (c : Image) : List (Nat × Nat) := (List.range (nreg c)).map (region c)

/-- The areas that must lie in fitted DDR and not overlap: the step record, the amber area, the restore spare, the digest list
and the regions. -/
def areas (c : Image) : List (Nat × Nat) :=
  [(stepRec c, 64), (amber c, amberLen c), (rspare c, rspareLen c), (dlist c, 16 * ndl c)].filter (fun x => x.2 != 0) ++
    regions c

end StepCfg

namespace State

/-- The digest list: address and length of each entry (R356), read where it lies in DDR. (DESIGN CHOICE, log 111). -/
def digestList (s : State) (c : Image) : List (Nat × Nat) :=
  (List.range (StepCfg.ndl c)).map fun i =>
    (s.rdNat (StepCfg.dlist c + 16 * i) 8, s.rdNat (StepCfg.dlist c + 16 * i + 8) 8)

/-- The step configuration is valid (R357). -/
def stepCfgValid (s : State) (c : Image) (doneTally : BitVec 6) : Bool :=
  let f (off : Nat) : Nat := Image.field c off 1
  let hosts := [f 0x0C, f 0x0D, f 0x0E, doneTally.toNat]
  let locals := [f 0x10, f 0x11, f 0x12]
  let zeroLen (a n : Nat) : Bool := a != 0 || n == 0
  c.length == 360 && Image.field c 0 4 == 0x31505453 && Image.field c 0x160 8 == (crc64 (c.take 0x160)).toNat &&
    decide (StepCfg.flags c < 16) && decide (StepCfg.nreg c ≤ 16) && f 7 == 0 && f 0x0F == 0 && f 0x13 == 0 &&
    Image.field c 0x54 12 == 0 && (StepCfg.restore c || decide (1 ≤ StepCfg.step0 c)) &&
    (hosts ++ locals).all (fun t => decide (t < 64)) && hosts.eraseDups.length == 4 && locals.eraseDups.length == 3 &&
    StepCfg.arriveN c != 0 && StepCfg.releaseN c != 0 &&
    decide (1 ≤ StepCfg.commitMs c) && decide (StepCfg.commitMs c ≤ 60000) && decide (StepCfg.ndl c ≤ 4096) &&
    StepCfg.stepRec c % 64 == 0 && StepCfg.amber c % 131072 == 0 && StepCfg.amberLen c % 131072 == 0 &&
    StepCfg.rspare c % 64 == 0 &&
    (StepCfg.amberOn c == (StepCfg.amber c != 0)) && (!StepCfg.restore c || StepCfg.amberOn c) &&
    zeroLen (StepCfg.amber c) (StepCfg.amberLen c) && zeroLen (StepCfg.rspare c) (StepCfg.rspareLen c) &&
    zeroLen (StepCfg.dlist c) (StepCfg.ndl c) &&
    ((List.range 16).all fun r =>
      let x := StepCfg.region c r
      if r < StepCfg.nreg c then x.1 % 64 == 0 && x.2 % 64 == 0 && x.2 != 0 else x == (0, 0)) &&
    ((StepCfg.areas c).all fun x => s.inDdr x.1 x.2) && disjoint (StepCfg.areas c) &&
    ((s.digestList c).all fun x => x.1 % 2048 == 0 && x.2 % 2048 == 0 && s.inDdr x.1 x.2)

/-! ### The running job -/

/-- The step configuration of the running launch. -/
def stepCfg (s : State) : Option Image := match s.job with
  | some j => j.step
  | none => none

/-- The launch runs and does not drain: only then do its commits go on. -/
def stepping (s : State) : Bool := s.launch.run && s.launch.st == 2

/-- The number of members of J, and the own job rank; one member without a fabric plan. -/
def jobSize (s : State) : Nat := match s.fabric.job with
  | some j => j.members.length
  | none => 1
def ownRank (s : State) : Nat := match s.fabric.job with
  | some j => j.ownRank
  | none => 0
def otherRanks (s : State) : List Nat := (List.range s.jobSize).filter (· != s.ownRank)

/-- The plan rank of a job rank; itself without a plan. -/
def planRankOf (s : State) (r : Nat) : Nat := match s.fabric.job with
  | some j => (j.planRank r).getD r
  | none => r

/-- The join has completed, or there is none. -/
def joinedUp (s : State) : Bool := match s.fabric.job with
  | some j => j.joined
  | none => true

/-- Add 1 to a local tally of every tile of the set. -/
def addAllTallies (s : State) (t : BitVec 6) : State := s.jobTiles.foldl (fun s p => s.addTally p t 1) s

/-- Set bits of HMN_EVENT. -/
def hmnEvent (s : State) (bit : Nat) : State :=
  { s with health := { s.health with event := s.health.event ||| BitVec.ofNat 8 (2 ^ bit) } }

end State

def hmnStateChange : Nat := 0
def hmnCommit : Nat := 1
def hmnVeto : Nat := 2
def hmnSecureDone : Nat := 3
def hmnSecureFail : Nat := 4
def hmnRestored : Nat := 5
def hmnWriteWhileRun : Nat := 6
def hmnTableBad : Nat := 7

namespace State

/-! ### The step record (R369) -/

/-- SEQ of the newest slot complete on this module, or 0. -/
def newestSlot (s : State) : W32 :=
  s.steps.slots.toList.foldl (fun m x => if x.state = 2 ∧ m < x.seq then x.seq else m) 0

def writeStepRec (s : State) (c : Image) (st : Nat) (next : Bool) : State :=
  let x := s.steps
  s.wrBytes (StepCfg.stepRec c)
    (leBytes x.t.toNat 4 ++ leBytes x.a.toNat 4 ++ leBytes x.k.toNat 4 ++ leBytes st 1 ++ leBytes (if next then 1 else 0) 1 ++
      [0#8, 0#8] ++ leBytes x.nfMask.toNat 4 ++ leBytes s.newestSlot.toNat 4 ++ List.replicate 40 0#8)

/-- The commit after `a` attempts is a digest commit (R387). (DEDUCED, log 75). -/
def digestDue (c : Image) (a : W32) : Bool :=
  StepCfg.digestEvery c != 0 && a != 0 && a.toNat % StepCfg.digestEvery c == 0

/-! ### Messages (R332, R365) -/

/-- A KIND 8 frame to a job rank: GROUP tells the message (0 COMMIT and INV, 1 a stripe, 2 its answer, 3 SEAL), NBLK is 1 in the
frame that opens it. (DESIGN CHOICE, log 66). -/
def kind8 (s : State) (dst : Nat) (group : BitVec 8) (coll : W32) (fidx arg nblk : Nat) (l : List Byte) : Frame :=
  let id := match s.fabric.job with
    | some j => dstId (Plan.fpr j.plan (s.planRankOf dst))
    | none => 0
  { tag := match s.job with
      | some j => j.jobtag
      | none => 0
    kind := 8, via := false, src := BitVec.ofNat 8 s.ownRank, dst := BitVec.ofNat 8 dst, group := group, nblk := BitVec.ofNat 8 nblk,
    dstid := id, coll := coll, fidx := BitVec.ofNat 32 fidx, arg := BitVec.ofNat 64 arg, nfmask := 0, payload := l }

/-- The frames of a body. -/
def bodyFrames (n : Nat) : Nat := (n + 2047) / 2048

/-- Send a message to a job rank: its head, then the body in frames of at most 2,048 bytes with its offset in ARG, FIDX counting
every KIND 8 frame to that rank. (DESIGN CHOICE, log 66). -/
def sendKind8 (s : State) (dst : Nat) (group : BitVec 8) (coll : W32) (head body : List Byte) : State :=
  let k := countOf s.fabric.next8 dst
  let n := bodyFrames body.length
  let s := s.modFabric fun b => { b with next8 := setCount b.next8 dst (k + 1 + n) }
  (List.range n).foldl (fun s i =>
    s.sendTo dst (s.kind8 dst group coll (k + 1 + i) (2048 * i) 0 ((body.drop (2048 * i)).take 2048)))
    (s.sendTo dst (s.kind8 dst group coll k 0 1 head))

/-- The first payload bytes of a COMMIT message. -/
def commitHead (m : CommitMsg) (inv : Bool) (bodyLen : Nat) : List Byte :=
  let b (x : Bool) (v : Nat) : Nat := if x then v else 0
  leBytes m.t.toNat 4 ++ leBytes m.a.toNat 4 ++ leBytes m.k.toNat 4 ++
    leBytes (b m.nf 1 + b m.secureReq 2 + b m.digest 4 + b inv 8) 1 ++ List.replicate 3 0#8 ++
    leBytes m.newSeq.toNat 4 ++ List.replicate 4 0#8 ++ leBytes bodyLen 8

/-- The highest slot SEQ this module holds, or 0 (R365). -/
def highestSeq (s : State) : W32 :=
  (s.steps.slots.toList.map (·.seq) ++ s.steps.held.map (·.seq)).foldl (fun m x => if m < x then x else m) 0

/-- The routing tables of the running job, empty without. -/
def routeImg (s : State) : Image := match s.job with
  | some j => j.route.getD []
  | none => []

/-- The STEP arrays of every routed layer (R365). -/
def stepArrays (s : State) : List Byte :=
  let r := s.routeImg
  if r.isEmpty then []
  else (List.range (Route.nlayer r)).flatMap fun l =>
    s.rdBytes (rstep (Route.stateAt r) l 0) (4 * Route.nexp (Route.layer r l))

/-- Where the STEP arrays lie. -/
def stepReads (s : State) : List Nat :=
  let r := s.routeImg
  if r.isEmpty then []
  else (List.range (Route.nlayer r)).flatMap fun l =>
    (List.range (4 * Route.nexp (Route.layer r l))).map (rstep (Route.stateAt r) l 0 + ·)

/-- The replica digests (R387): the XOR of the CRC-64 of the 2 KiB granules of each entry. -/
def replicaDigests (s : State) (c : Image) : List W64 :=
  (s.digestList c).map fun x =>
    (List.range (x.2 / 2048)).foldl (fun d i => d ^^^ crc64 (s.rdBytes (x.1 + 2048 * i) 2048)) 0

/-- The own image of the last securing is still being secured. -/
def isSecuring (s : State) : Bool :=
  let x := s.steps.slots[(⟨s.steps.secSeq.toNat % 2, by omega⟩ : Fin 2)]
  x.seq == s.steps.secSeq && x.state == 1

/-- SECURE_REQ of this module (R374, R375): in SECURE_PENDING; with RUN = 0 by SECURE_NOW and SECURE_EVERY. (DESIGN CHOICE, log 76). -/
def secureReq (s : State) (c : Image) : Bool :=
  let h := s.health
  let every := h.smC.toNat % 65536
  if h.run then h.state == 2
  else !s.isSecuring && (h.asked || (StepCfg.amberOn c && every != 0 && decide (every ≤ s.steps.sinceSlot + 1)))

/-! ### Evaluation after a gate (R367, R368) -/

/-- A record merged over the bodies in job-rank order, records of another HBASE or BINW left out (R129). (DEDUCED, log 74). -/
def mergedRecord (bodies : List (List Byte)) (off : Nat) : Merged :=
  let recs := bodies.map fun b => StatRec.ofImage ((b.drop off).take 96)
  let m : StatRec := match recs with
    | [] => StatRec.empty
    | r :: l => (l.filter fun (x : StatRec) => x.hbase == r.hbase && x.binw == r.binw).foldl StatRec.merge r
  { hist := m.hist.toList.map (·.toNat), maxabs := m.maxabs, zeros := m.zeros.toNat, nonfin := m.nonfin.toNat,
    count := m.count.toNat, hbase := m.hbase.toInt, binw := m.binw.toNat }

/-- Zero the counts and MAXABS of a record; the merges that arrived after it was read count in the next step (R129).
(DEDUCED, log 74). -/
def zeroRecord (s : State) (at0 : Nat) : State :=
  let cur := StatRec.ofImage (s.rdBytes at0 96)
  let zero : StatRec := { StatRec.empty with hbase := cur.hbase, binw := cur.binw }
  let late := s.steps.lateMerges.filter fun m => m.1 == at0 && m.2.hbase == cur.hbase && m.2.binw == cur.binw
  s.wrBytes at0 ((late.map (·.2)).foldl StatRec.merge zero).image

/-- The layer formats of the next step (R136). (DEDUCED, log 74). -/
def evalFormats (s : State) (bodies : List (List Byte)) (vetoed : Bool) : State :=
  match s.job with
  | none => s
  | some j =>
    if s.statsLen = 0 then s
    else s.setLayerTable j.layerFmt ((List.range j.nlayer).map fun l =>
      let e := s.layerEntry j.layerFmt l
      evalEntry (policyOf j.policy (wordBits e 16 4)) s.steps.t vetoed (mergedRecord bodies (192 * l))
        (mergedRecord bodies (192 * l + 96)) e)

/-- Zero the own statistics records. (DEDUCED, log 74). -/
def zeroStats (s : State) : State :=
  ((List.range (s.statsLen / 96)).foldl (fun x i => x.zeroRecord (s.statsAt + 96 * i)) s).stepsMod fun x =>
    { x with lateMerges := [] }

/-- The addresses that the evaluation reads: the layer format table and the routing state (R136, R250). -/
def evalReads (s : State) : List Nat :=
  (match s.job with
    | some j => if s.statsLen = 0 then [] else (List.range (0x18 + 8 * j.nlayer)).map (j.layerFmt + ·)
    | none => []) ++
  (let r := s.routeImg
   if r.isEmpty then [] else (List.range (routeLen (Route.nlayer r))).map (Route.stateAt r + ·))

/-- Where layer l's STEP array lies in a body. -/
def stepOffset (s : State) (r : Image) (l : Nat) : Nat :=
  s.statsLen + ((List.range l).map fun i => 4 * Route.nexp (Route.layer r i)).foldl (· + ·) 0

/-- The bias loop with the domain sums of the bodies (R250). -/
def evalBias (s : State) (bodies : List (List Byte)) (vetoed : Bool) : State :=
  let r := s.routeImg
  if r.isEmpty then s
  else s.biasLoop r vetoed fun l e =>
    (bodies.map fun b => leNat ((b.drop (s.stepOffset r l + 4 * e)).take 4)).foldl (· + ·) 0

/-- The evaluation of R367 from the bodies of the commit: what it writes takes effect with the commit (R368).
(DEDUCED, log 73). -/
def evaluate (s : State) (bodies : List (List Byte)) (vetoed : Bool) : State :=
  ((s.evalFormats bodies vetoed).zeroStats).evalBias bodies vetoed

/-- The first digest entry that differs between two members (R388). -/
def digestMismatch (s : State) (c : Image) (bodies : List (List Byte)) : Option Nat :=
  let off := s.stepOffset s.routeImg (if s.routeImg.isEmpty then 0 else Route.nlayer s.routeImg)
  let d (b : List Byte) (i : Nat) : List Byte := (b.drop (off + 8 * i)).take 8
  (List.range (StepCfg.ndl c)).find? fun i => bodies.any fun b => d b i != d (bodies.headD []) i

/-! ### The gate (R366) -/

/-- The engines at the gate (R279): vetoed, the attempt's requests are discarded and stashed units restored; clear, the stash
is released. -/
def gateEngines (s : State) (vetoed : Bool) : State :=
  if vetoed then
    let gone := s.steps.units.filter fun u => u.attempt == s.steps.a
    let s := s.stepsMod fun x => { x with units := x.units.filter fun u => u.attempt != x.a }
    (gone.foldl (fun s u => s.finishRequest u.owner u.te) s).unstash
  else s.releaseStash

/-- The COMMIT messages of the current commit, by job rank. -/
def commitMsgs (s : State) : List CommitMsg :=
  (List.range s.jobSize).filterMap fun r => s.steps.msgs.find? fun m => m.src.toNat == r && m.k == s.steps.k

/-- The gate opens once the module has arrived and every message is in (R366); a digest commit compares (R388).
(DEDUCED, log 73). -/
def tryGate (s : State) (c : Image) : State :=
  let ms := s.commitMsgs
  if s.steps.phase ≠ .arrived ∨ !s.stepping ∨ ms.length < s.jobSize then s
  else
    let dig := s.steps.digest
    let mask : W32 := BitVec.ofNat 32 ((ms.filter (·.nf)).map fun m => 2 ^ m.src.toNat).sum
    let vetoed := !dig && ms.any (·.nf)
    let s := s.stepsMod fun x => { x with nfMask := mask, phase := if vetoed then .gateVetoed else .gateClear }
    let s := s.writeStepRec c (if vetoed then 2 else 1) (!dig && digestDue c (s.steps.a + 1))
    let s := s.addAllTallies (StepCfg.gateT c)
    let bodies := ms.map (·.body)
    if dig then
      match s.digestMismatch c bodies with
      | some i =>
        (s.stepsMod fun x => { x with restoreCause := 1, restoreDigest := BitVec.ofNat 12 i }).moduleHwFault 0x8A
      | none => s
    else
      (if vetoed then s.hmnEvent hmnVeto else s).gateEngines vetoed

/-- Check early messages against the own T and A, now that they are of the current commit (R366). -/
def checkEarly (s : State) : State :=
  let x := s.steps
  if x.msgs.any fun m => m.k != x.k || m.t != x.t || m.a != x.a then s.moduleHwFault 0x8D else s

end State

/-! ### Arrival and messages -/

/-- The module arrives (R362): its flag closes, it reads its body and sends its COMMIT message. No effect before the conditions
hold. (DEDUCED, log 75). -/
def execArrival (s : State) : Host.Outcome State Fault Refusal :=
  match s.stepCfg with
  | none => .next s
  | some c =>
    let x := s.steps
    if !s.stepping ∨ x.phase ≠ .stepping ∨ !s.joinedUp ∨
        !reached (s.hostTally (StepCfg.arriveT c)) (StepCfg.arriveN c * (x.k + 1)) ∨
        x.units.any (fun u => u.attempt == x.a && !u.checked) then .next s
    else
      let digests := if x.digest then s.replicaDigests c else []
      let body := s.rdBytes s.statsAt s.statsLen ++ s.stepArrays ++ digests.flatMap fun d => leBytes d.toNat 8
      let m : CommitMsg :=
        { src := BitVec.ofNat 8 s.ownRank, t := x.t, a := x.a, k := x.k, nf := x.nf,
          secureReq := s.secureReq c, digest := x.digest, newSeq := s.highestSeq, body := body }
      let reads := (List.range s.statsLen).map (s.statsAt + ·) ++ s.stepReads ++
        (if x.digest then (s.digestList c).flatMap fun y => (List.range y.2).map (y.1 + ·) else [])
      let s := s.stepsMod fun x =>
        { x with phase := .arrived, digests := if x.digest then digests else x.digests,
                 msgs := x.msgs.filter (fun y => y.src != m.src) ++ [m] }
      let s := s.otherRanks.foldl (fun s d => s.sendKind8 d 0 m.k (State.commitHead m false body.length) body) s
      .next ((s.readByModule reads).tryGate c)

/-- A COMMIT message (R365, R366): held during a restore; of the current commit, checked at once; of the next, held once this
module has arrived. -/
def execCommitMessage (m : CommitMsg) (s : State) : Host.Outcome State Fault Refusal :=
  s.whenPowered fun s =>
  match s.stepCfg with
  | none => .next s.discard
  | some c =>
    let x := s.steps
    let put := s.stepsMod fun x => { x with msgs := x.msgs.filter (fun y => y.src != m.src || y.k != m.k) ++ [m] }
    if !s.stepping ∨ !(s.otherRanks.contains m.src.toNat) then .next s.discard
    else if x.phase = .restoring then .next put
    else if m.k = x.k then
      if m.t ≠ x.t ∨ m.a ≠ x.a then .next (s.moduleHwFault 0x8D) else .next (put.tryGate c)
    else if m.k = x.k + 1 ∧ x.phase ≠ .stepping then .next put
    else .next (s.moduleHwFault 0x8D)

/-- COMMITMS after arrival (R366). -/
def execCommitTimeout (s : State) : Host.Outcome State Fault Refusal :=
  if s.stepCfg.isSome ∧ s.steps.phase = .arrived then .next (s.moduleHwFault 0x8C) else .next s

end Sys2Proof.Machine
end

