-- ==== Sys2Proof/Machine/Amber.lean ====
section
/-!
DEFINITION. The step commit, amber images, stripes and seals, and the restore (R368, R374, R376 to R389).
-/
namespace Sys2Proof.Machine

def padTo (n : Nat) (l : List Byte) : List Byte := l ++ List.replicate ((n - l.length % n) % n) 0#8

/-- A stripe is 64 MiB (R378). -/
def stripeBytes : Nat := 2 ^ 26
def stripeCount (len : Nat) : Nat := (len + stripeBytes - 1) / stripeBytes

namespace State

/-! ### The amber image (R376) -/

/-- The regions of this module's image in order: address and length. -/
def amberRegions (s : State) (c : Image) : List (Nat × Nat) :=
  let lf := match s.job with
    | some j => if j.layerFmt = 0 then [] else [(j.layerFmt, 0x18 + 8 * j.nlayer)]
    | none => []
  let r := s.routeImg
  let u := s.updImage
  lf ++ (if r.isEmpty then [] else [(Route.stateAt r, routeLen (Route.nlayer r))]) ++
    (if s.statsLen = 0 then [] else [(s.statsAt, s.statsLen)]) ++ StepCfg.regions c ++
    (if u.isEmpty then [] else (List.range (Upd.ngrp u)).flatMap fun g =>
      (Upd.locals u g).map (fun a => (a, Upd.nblk u g * Upd.pitch u g)) ++ [(Upd.stamps u g, 4 * Upd.nblk u g)])

/-- The plan's SEQ, the own plan rank and the members of J, as the header gives them. -/
def planFields (s : State) : Nat × Nat × Nat := match s.fabric.job with
  | some j => (Plan.seq j.plan, j.rank, j.members.length)
  | none => (0, 0, 1)

/-- The directory of regions. -/
def amberDir (l : List (Nat × Nat)) : List Byte := l.flatMap fun x => leBytes x.1 8 ++ leBytes x.2 8

/-- The header of an image. (DEDUCED, log 78). -/
def amberHeader (s : State) (l : List (Nat × Nat)) (seq : W32) (imageLen : Nat) : List Byte :=
  let (ps, rank, n) := s.planFields
  let h := leBytes 0x31424D41 4 ++ leBytes seq.toNat 4 ++ leBytes s.steps.t.toNat 4 ++ leBytes s.steps.a.toNat 4 ++
    leBytes ps 4 ++ leBytes rank 1 ++ leBytes n 1 ++ leBytes l.length 2 ++ leBytes imageLen 8 ++ ownFpr ++
    List.replicate 48 0#8 ++ leBytes (crc64 (amberDir l)).toNat 8 ++ List.replicate 3952 0#8
  h ++ leBytes (crc64 h).toNat 8

/-- The image of this module with this SEQ. -/
def amberImage (s : State) (c : Image) (seq : W32) : List Byte :=
  let l := s.amberRegions c
  let rest := padTo 4096 (amberDir l) ++ l.flatMap fun x => padTo 64 (s.rdBytes x.1 x.2)
  s.amberHeader l seq (4096 + rest.length) ++ rest

end State

namespace AmberImg

def seq (m : Image) : W32 := BitVec.ofNat 32 (Image.field m 4 4)
def t (m : Image) : W32 := BitVec.ofNat 32 (Image.field m 8 4)
def rank (m : Image) : Nat := Image.field m 0x14 1
def nmemb (m : Image) : Nat := Image.field m 0x15 1
def ndir (m : Image) : Nat := Image.field m 0x16 2
def len (m : Image) : Nat := Image.field m 0x18 8
def fpr (m : Image) : List Byte := (m.drop 0x20).take 48
def regionLen (m : Image) (i : Nat) : Nat := Image.field m (0x1008 + 16 * i) 8
/-- Where region i starts in the image. -/
def regionOff (m : Image) (i : Nat) : Nat :=
  0x1000 + (16 * ndir m + 4095) / 4096 * 4096 +
    ((List.range i).map fun k => (regionLen m k + 63) / 64 * 64).foldl (· + ·) 0
def region (m : Image) (i : Nat) : List Byte := (m.drop (regionOff m i)).take (regionLen m i)

end AmberImg

/-! ### Securing (R377 to R381) -/

/-- The holders of stripe i of owner r among n members (R378). -/
def holders (n r i : Nat) : List Nat :=
  if n ≤ 1 then []
  else if n = 2 then [1 - r]
  else [(r + 1 + i % (n - 1)) % n, (r + 1 + (i + (n - 1 + 1) / 2) % (n - 1)) % n]

/-- Bytes of stripe i of an image. -/
def stripeOf (image : List Byte) (i : Nat) : List Byte := (image.drop (stripeBytes * i)).take stripeBytes

def Slot.nstripes (x : Slot) : Nat := stripeCount x.image.length

/-- Every copy a slot needs: holder and stripe. -/
def Slot.copies (x : Slot) (n own : Nat) : List (BitVec 8 × Nat) :=
  (List.range x.nstripes).flatMap fun i => (holders n own i).map fun h => (BitVec.ofNat 8 h, i)

namespace State

/-- The health monitor enters a state (R374); with RUN = 0 its state stays (R375). -/
def setHealthState (s : State) (v : BitVec 3) : State :=
  if s.health.state = v ∨ s.health.run = false then s
  else
    ({ s with health := { s.health with state := v, above := 0,
                                        cooldown := if v = 4 then (s.health.smB.toNat / 2 ^ 24) else s.health.cooldown } }).hmnEvent
      hmnStateChange

def slotIdx (seq : W32) : Fin 2 := ⟨seq.toNat % 2, by omega⟩
def slotAt (s : State) (seq : W32) : Slot := s.steps.slots[slotIdx seq]
def modSlot (s : State) (seq : W32) (f : Slot → Slot) : State :=
  s.stepsMod fun x => { x with slots := x.slots.set (slotIdx seq) (f x.slots[slotIdx seq]) }

/-- Write a piece into the amber area, at the place the device gives it. (DESIGN CHOICE, log 76). -/
def writeAmber (s : State) (c : Image) (place : Nat) (l : List Byte) : State :=
  if StepCfg.amberLen c < l.length then s
  else s.wrBytes (StepCfg.amber c + place % (StepCfg.amberLen c - l.length + 1)) l

/-- Send stripe i of a slot to one holder: SEQ, index, length and CRC-64, then the bytes. -/
def sendStripe (s : State) (x : Slot) (holder i : Nat) : State :=
  let b := stripeOf x.image i
  s.sendKind8 holder 1 x.seq
    (leBytes x.seq.toNat 4 ++ leBytes i 4 ++ leBytes b.length 8 ++ leBytes (crc64 b).toNat 8 ++ List.replicate 8 0#8) b

/-- The manifest of an image (R382), its signature by the device identity key over the bytes before it. (DEDUCED, log 78). -/
def manifestOf (s : State) (x : Slot) : List Byte × State :=
  let k := s.freeCtr
  let m := leBytes 0x31464E4D 4 ++ leBytes x.seq.toNat 4 ++ leBytes x.t.toNat 4 ++ leBytes x.nstripes 4 ++
    leBytes x.image.length 8 ++ ownKey ++ List.replicate 7 0#8 ++
    (List.range x.nstripes).flatMap fun i => sha384 (stripeOf x.image i)
  (m ++ ownSign k m, { s with freeCtr := k + 1 })

/-- The indices of the stripes of owner r's image of n stripes that this module is to hold (R378). (DESIGN CHOICE, log 76). -/
def assigned (s : State) (r n : Nat) : List Nat :=
  (List.range n).filter fun i => (holders s.jobSize r i).contains s.ownRank

/-- The copy of owner r's slot here is sealed: its SEAL has come, which says how many stripes the image has, and every stripe
assigned to this module is held (R380). (DESIGN CHOICE, log 76). -/
def copySealed (s : State) (r : Nat) (seq : W32) : Bool :=
  let rank := s.planRankOf r
  match s.steps.seals.find? fun x => x.1 == rank && x.2.1 == seq with
  | some x => (s.assigned r x.2.2).all fun i => s.steps.held.any fun h => h.rank == rank && h.seq == seq && h.index == i
  | none => false

/-- Mark the stripes of a copy that is sealed. -/
def sealHeld (s : State) (r : Nat) (seq : W32) : State :=
  if s.copySealed r seq then
    s.stepsMod fun x =>
      { x with held := x.held.map fun h => if h.rank == s.planRankOf r && h.seq == seq then { h with isSealed := true } else h }
  else s

/-- Every copy of slot `seq` that this module holds is sealed, those of which nothing has come yet among them (R380).
(DESIGN CHOICE, log 76). -/
def copiesSealed (s : State) (seq : W32) : Bool := s.otherRanks.all fun r => s.copySealed r seq

/-- Slot `seq` completes once its own image is sealed at its holders and every copy held for it is sealed (R380); every
STORE_EVERY-th completed slot gets its manifest. -/
def tryComplete (s : State) (c : Image) (seq : W32) : State :=
  let x := s.slotAt seq
  if x.seq = seq ∧ x.state = 1 ∧ x.sealedOwn ∧ s.copiesSealed seq then
    let n := s.steps.doneSlots + 1
    let s := ((s.modSlot seq fun x => { x with state := 2 }).stepsMod fun y =>
      { y with doneSlots := n, sinceSlot := 0 }).hmnEvent hmnSecureDone
    if StepCfg.storeEvery c = 0 ∨ n % StepCfg.storeEvery c ≠ 0 then s
    else
      let (m, s) := s.manifestOf x
      (s.stepsMod fun y => { y with manifest := m }).writeAmber c (Config.amberPlace 2 0 0) m
  else s

/-- The owner's SEAL once every copy is acknowledged (R380): to each other member, with the image's number of stripes, so that each
knows what it holds. (DESIGN CHOICE, log 76). -/
def trySeal (s : State) (c : Image) (seq : W32) : State :=
  let x := s.slotAt seq
  if x.seq = seq ∧ x.state = 1 ∧ !x.sealedOwn ∧ (x.copies s.jobSize s.ownRank).all x.acks.contains then
    let s := s.otherRanks.foldl (fun s h => s.sendKind8 h 3 seq (leBytes seq.toNat 4 ++ leBytes x.nstripes 4) []) s
    (s.modSlot seq fun x => { x with sealedOwn := true }).tryComplete c seq
  else s

/-- Securing begins (R377, R379): the image as the commit left it, its stripes sent to their holders. (DESIGN CHOICE, log 76). -/
def beginSecuring (s : State) (c : Image) (seq : W32) : State :=
  let image := s.amberImage c seq
  let s := s.readByModule ((s.amberRegions c).flatMap fun r => (List.range r.2).map (r.1 + ·))
  let x : Slot := ⟨seq, 1, s.steps.t, image, [], [], false⟩
  let s := (s.modSlot seq fun _ => x).stepsMod fun y =>
    { y with secSeq := seq, held := y.held.filter fun h => h.seq.toNat % 2 != seq.toNat % 2 || h.seq == seq }
  let head := 4096 + (16 * (s.amberRegions c).length + 4095) / 4096 * 4096
  let s := s.writeAmber c (Config.amberPlace 0 (seq.toNat % 2) 0) (image.take head)
  let s := (x.copies s.jobSize s.ownRank).foldl (fun s y => s.sendStripe x y.1.toNat y.2) s
  let s := { s with health := { s.health with asked := false } }
  (s.setHealthState 3).trySeal c seq

/-- Whether a securing is due at a step commit (R374): SECURE_PENDING, SECURE_EVERY, or another member's SECURE_REQ. With RUN = 0
no state moves (R375): SECURE_NOW, SECURE_EVERY and another member's SECURE_REQ begin one where none runs. (DESIGN CHOICE, log 76). -/
def securingDue (s : State) (c : Image) (req : Bool) : Bool :=
  let h := s.health.state
  let every := s.health.smC.toNat % 65536
  let passed := every != 0 && decide (every ≤ s.steps.sinceSlot)
  StepCfg.amberOn c &&
    if s.health.run then h == 2 || ((h == 0 || h == 1) && passed) || ((h == 0 || h == 1 || h == 4) && req)
    else !s.isSecuring && (s.health.asked || passed || req)

/-! ### The step commit (R368) -/

/-- A digest commit changes only K. (DEDUCED, log 75). -/
def digestCommit (s : State) (c : Image) : State :=
  let s := (s.stepsMod fun x =>
    { x with k := x.k + 1, phase := .stepping, digest := false, nf := x.nf || x.nfNext, nfNext := false,
             msgs := x.msgs.filter fun m => m.k == x.k + 1 }).hmnEvent hmnCommit
  ((s.writeStepRec c 5 false).addAllTallies (StepCfg.commitT c)).checkEarly

/-- A step commit: what the evaluation writes, t, A and K together, then a due securing, then COMMIT_T. -/
def plainCommit (s : State) (c : Image) : State :=
  let vetoed := s.steps.phase = .gateVetoed
  let ms := s.commitMsgs
  let s := s.evaluate (ms.map (·.body)) vetoed
  let seq := 1 + ms.foldl (fun m x => if m < x.newSeq then x.newSeq else m) (0 : W32)
  let req := ms.any fun m => m.secureReq && m.src.toNat != s.ownRank
  let dig := digestDue c (s.steps.a + 1)
  let s := (s.stepsMod fun x =>
    { x with t := if vetoed then x.t else x.t + 1, a := x.a + 1, k := x.k + 1, phase := .stepping, nf := x.nfNext,
             nfNext := false, digest := dig, sinceSlot := x.sinceSlot + 1,
             msgs := x.msgs.filter fun m => m.k == x.k + 1 }).hmnEvent hmnCommit
  let s := s.writeStepRec c (if vetoed then 4 else 3) dig
  let s := if s.securingDue c req then s.beginSecuring c seq else s
  (s.addAllTallies (StepCfg.commitT c)).checkEarly

end State

/-- The step commit takes place (R368): no effect before the gate is open, every update of the attempt is written, and the
release is in. (DEDUCED, log 73). -/
def execStepCommit (s : State) : Host.Outcome State Fault Refusal :=
  match s.stepCfg with
  | none => .next s
  | some c =>
    let x := s.steps
    if !s.stepping ∨ (x.phase ≠ .gateClear ∧ x.phase ≠ .gateVetoed) ∨
        (!x.digest ∧ x.units.any fun u => u.attempt == x.a) ∨
        !reached (s.hostTally (StepCfg.releaseT c)) (StepCfg.releaseN c * (x.k + 1)) then .next s
    else if x.digest then .next (s.dropBiases.digestCommit c)
    else
      let s1 := s.readByModule s.evalReads
      if s1.stepping then .next (s1.dropBiases.plainCommit c) else .next s1

/-! ### Stripes and seals -/

namespace State

/-- A holder has room for one more stripe of a slot index (R378, R381). (DESIGN CHOICE, log 77). -/
def stripeRoom (s : State) (c : Image) (seq : W32) : Bool :=
  decide ((s.steps.held.filter fun h => h.seq.toNat % 2 == seq.toNat % 2).length <
    (StepCfg.amberLen c - 2 ^ 20) / 2 / stripeBytes)

/-- A holder's answer to a stripe. (DESIGN CHOICE, log 77). (DESIGN CHOICE, log 66). -/
def ackStripe (s : State) (owner : Nat) (seq : W32) (index : Nat) (answer : StripeAnswer) : State :=
  let v : Nat := match answer with
    | .crcBad => 0
    | .stored => 1
    | .noRoom => 2
  s.sendKind8 owner 2 seq (leBytes seq.toNat 4 ++ leBytes index 4 ++ leBytes v 4) []

end State

/-- A stripe for this holder (R379): written once its CRC-64 checks and there is room, and acknowledged. -/
def execStripe (m : StripeMsg) (s : State) : Host.Outcome State Fault Refusal :=
  s.whenServed fun s =>
  match s.stepCfg with
  | none => .next s.discard
  | some c =>
    let r := m.owner.toNat
    if !s.launchActive ∨ !StepCfg.amberOn c ∨ !(s.otherRanks.contains r) ∨
        !((holders s.jobSize r m.index).contains s.ownRank) then .next s.discard
    else
      let rank := s.planRankOf r
      let s := s.stepsMod fun x =>
        { x with held := x.held.filter fun h => !(h.rank == rank && h.seq.toNat % 2 == m.seq.toNat % 2 &&
                   (h.seq != m.seq || h.index == m.index)) }
      if !s.stripeRoom c m.seq then .next (s.ackStripe r m.seq m.index .noRoom)
      else if crc64 m.bytes ≠ m.crc then .next (s.ackStripe r m.seq m.index .crcBad)
      else
        let h : HeldStripe := ⟨rank, m.seq, m.index, m.bytes, false⟩
        let s := (s.stepsMod fun x => { x with held := x.held ++ [h] }).sealHeld r m.seq
        let s := s.writeAmber c (Config.amberPlace 1 (2 * rank + m.seq.toNat % 2) m.index) m.bytes
        .next ((s.ackStripe r m.seq m.index .stored).tryComplete c m.seq)

/-- A holder's acknowledgement (R380); a stripe whose CRC failed is sent again once; a second failure or a lack of room
fails the securing (R381). (DESIGN CHOICE, log 77). -/
def execStripeAck (holder : BitVec 8) (seq : BitVec 32) (index : Nat) (answer : StripeAnswer) (s : State) :
    Host.Outcome State Fault Refusal :=
  s.whenPowered fun s =>
  match s.stepCfg with
  | none => .next s
  | some c =>
    let x := s.slotAt seq
    if !s.launchActive ∨ x.seq ≠ seq ∨ x.state ≠ 1 ∨ !((x.copies s.jobSize s.ownRank).contains (holder, index)) then .next s
    else if answer = .stored then
      .next ((s.modSlot seq fun x => { x with acks := (holder, index) :: x.acks.filter (· != (holder, index)) }).trySeal c seq)
    else if answer = .noRoom ∨ x.refused.contains (holder, index) then
      .next ((s.modSlot seq fun x => { x with state := 3 }).hmnEvent hmnSecureFail)
    else
      .next ((s.modSlot seq fun x => { x with refused := (holder, index) :: x.refused }).sendStripe x holder.toNat index)

/-- SEAL from an owner (R380), with its image's number of stripes: its copies here are sealed once they are all held. -/
def execSeal (owner : BitVec 8) (m : SealMsg) (s : State) : Host.Outcome State Fault Refusal :=
  s.whenPowered fun s =>
  match s.stepCfg with
  | none => .next s.discard
  | some c =>
    if !s.launchActive ∨ !(s.otherRanks.contains owner.toNat) then .next s.discard
    else
      let rank := s.planRankOf owner.toNat
      let s := s.stepsMod fun x =>
        { x with seals := (rank, m.seq, m.nstripe.toNat) :: x.seals.filter fun y => y.1 != rank || y.2.1.toNat % 2 != m.seq.toNat % 2 }
      .next ((s.sealHeld owner.toNat m.seq).tryComplete c m.seq)

/-! ### The restore (R383 to R388) -/

namespace State

/-- The restore fails (R384 to R386). -/
def restoreFail (s : State) (cause : BitVec 4) : State :=
  (s.stepsMod fun x => { x with restoreCause := cause, restoreDigest := 0 }).moduleHwFault 0x8B

/-- The inventory of this module: its sealed copies; the header's fields come with stripe 0. -/
def ownInventory (s : State) : List InvCopy :=
  (s.steps.held.filter (·.isSealed)).map fun h =>
    if h.index = 0 then ⟨h.seq, h.rank, 0, AmberImg.t h.bytes, AmberImg.nmemb h.bytes, AmberImg.len h.bytes⟩
    else ⟨h.seq, h.rank, h.index, 0, 0, 0⟩

/-- Rests on a choice of the model (DESIGN CHOICE, log 66). -/
def invBytes (c : InvCopy) : List Byte :=
  leBytes c.seq.toNat 4 ++ leBytes c.rank 4 ++ leBytes c.stripe 4 ++ leBytes c.t.toNat 4 ++ leBytes c.nmemb 8 ++
    leBytes c.imageLen 8

/-- The copies of every inventory. -/
def allCopies (s : State) : List InvCopy := s.steps.invs.flatMap (·.copies)

/-- Slot `seq` is usable (R384): stripe 0 of as many plan ranks as the slot has members, and of each every stripe. -/
def slotUsable (s : State) (seq : W32) : Bool :=
  let l := s.allCopies.filter fun c => c.seq == seq
  let heads := l.filter fun c => c.stripe == 0
  match heads with
  | [] => false
  | h :: _ => (heads.map (·.rank)).eraseDups.length == h.nmemb && heads.all fun c =>
    (List.range (stripeCount c.imageLen)).all fun i => l.any fun d => d.rank == c.rank && d.stripe == i

/-- With every inventory in, the slot is chosen (R384). (DEDUCED, log 78). -/
def trySelect (s : State) (c : Image) : State :=
  let have' := (List.range s.jobSize).all fun r => s.steps.invs.any fun m => m.src.toNat == r
  if s.steps.phase ≠ .restoring ∨ s.steps.chosen.isSome ∨ StepCfg.store c ∨ !have' then s
  else
    let usable := ((s.allCopies.map (·.seq)).eraseDups).filter s.slotUsable
    match usable with
    | [] => s.restoreFail 2
    | x :: l =>
      let pick := l.foldl (fun m y => if StepCfg.skipNewest c then (if y < m then y else m) else if m < y then y else m) x
      s.stepsMod fun y => { y with chosen := some pick }

/-- The restore starts after the join (R383): the own inventory, to every member. -/
def restoreStart (s : State) : State :=
  match s.stepCfg with
  | none => s
  | some c =>
    if s.steps.phase ≠ .restoring ∨ StepCfg.store c then s
    else
      let m : InvMsg := ⟨BitVec.ofNat 8 s.ownRank, s.ownInventory⟩
      let body := m.copies.flatMap invBytes
      let head : CommitMsg := ⟨m.src, s.steps.t, 0, 0, false, false, false, s.highestSeq, body⟩
      let s := s.stepsMod fun x => { x with invs := x.invs.filter (fun y => y.src != m.src) ++ [m] }
      (s.otherRanks.foldl (fun s d => s.sendKind8 d 0 0 (commitHead head true body.length) body) s).trySelect c

/-- The manifest that host software placed after the image at RSPARE, with its image (R382, R386): none where a check fails.
(DESIGN CHOICE, log 77). -/
def storedImage (s : State) (c : Image) : Option Image :=
  let a := StepCfg.rspare c
  let len := s.rdNat (a + 0x18) 8
  let n := stripeCount len
  let mlen := 0x80 + 48 * n + 96
  if StepCfg.rspareLen c < len + mlen ∨ len < 4096 then none
  else
    let image := s.rdBytes a len
    let m := s.rdBytes (a + len) mlen
    let key := (m.drop 0x18).take 97
    if Image.field m 0 4 == 0x31464E4D && Image.field m 0x0C 4 == n && Image.field m 0x10 8 == len &&
        sha384 key == AmberImg.fpr image && ecdsaVerify key (m.take (mlen - 96)) (m.drop (mlen - 96)) &&
        (List.range n).all fun i => sha384 (stripeOf image i) == (m.drop (0x80 + 48 * i)).take 48
    then some image else none

/-- The absent plan ranks that this member assembles (R385): of the plan ranks in the slot, as the inventories name them; with
STORE, which has none, of the ranks below NMEMB. (DEDUCED, log 78). -/
def spareRanks (s : State) (image : Image) : List Nat :=
  let heads := ((s.allCopies.filter fun x => some x.seq == s.steps.chosen && x.stripe == 0).map (·.rank)).eraseDups
  let ranks := if s.steps.chosen.isSome then heads else List.range (AmberImg.nmemb image)
  ranks.filter fun k =>
    (match s.fabric.job with
      | some j => !(j.members.contains k)
      | none => k != 0) && k % s.jobSize == s.ownRank

/-- Write the image's regions where this launch has them, in order. -/
def writeRegions (s : State) (c : Image) (image : Image) : State :=
  (s.amberRegions c).zipIdx.foldl (fun s x => s.wrBytes x.1.1 (AmberImg.region image x.2)) s

/-- Rewrite WOUT of every unit from the restored master (R383). -/
def regenerate (s : State) : State :=
  let u := s.updImage
  if u.isEmpty then s
  else (List.range (Upd.ngrp u)).foldl (fun s g =>
    (List.range (Upd.nblk u g)).foldl (fun s i => s.rewriteWout u g i) s) s

/-- The restored tables pass their launch checks (R383). -/
def tablesOk (s : State) : Bool :=
  (match s.job with
    | some j => j.layerFmt == 0 || s.layerTableValid j.formats j.policy j.layerFmt
    | none => true) && (s.routeImg.isEmpty || s.routeStateValid s.routeImg)

/-- The fetched image is restored (R383, R385). -/
def restoreImage (s : State) (c : Image) (image : Image) (spare : List (Nat × List Byte)) : State :=
  let regions := s.amberRegions c
  let spares := (s.spareRanks image).filterMap fun k => (spare.find? fun x => x.1 == k).map (·.2)
  let room := (spares.map (·.length)).foldl (· + ·) 0
  if AmberImg.ndir image ≠ regions.length ∨ regions.zipIdx.any (fun x => AmberImg.regionLen image x.2 != x.1.2) then
    s.restoreFail 3
  else if StepCfg.rspareLen c < room then s.restoreFail 5
  else
    let s := (s.writeRegions c image).wrBytes (StepCfg.rspare c) spares.flatten
    if !s.tablesOk then s.restoreFail 4
    else
      let s := s.regenerate.stepsMod fun x =>
        { x with t := AmberImg.t image, a := 0, k := 0, phase := .stepping, digest := true, restoreSeq := AmberImg.seq image,
                 restoreCause := 0, restoreDigest := 0, nf := x.nf || x.nfNext, nfNext := false }
      ((s.writeStepRec c 6 true).addAllTallies (StepCfg.restoreT c)).hmnEvent hmnRestored |>.checkEarly

end State

/-- An inventory (R383). -/
def execInv (m : InvMsg) (s : State) : Host.Outcome State Fault Refusal :=
  s.whenPowered fun s =>
  match s.stepCfg with
  | none => .next s.discard
  | some c =>
    if !s.stepping ∨ s.steps.phase ≠ .restoring ∨ !(s.otherRanks.contains m.src.toNat) then .next s.discard
    else
      .next ((s.stepsMod fun x => { x with invs := x.invs.filter (fun y => y.src != m.src) ++ [m] }).trySelect c)

/-- The fetch is done (R383, R386): with STORE, the image is the one at RSPARE. No effect before a slot is chosen, or while an
image this member must assemble is missing. -/
def execRestoreFetchDone (image : List Byte) (spare : List (Nat × List Byte)) (s : State) :
    Host.Outcome State Fault Refusal :=
  match s.stepCfg with
  | none => .next s
  | some c =>
    if !s.stepping ∨ s.steps.phase ≠ .restoring ∨ !s.joinedUp then .next s
    else if StepCfg.store c then
      let len := s.rdNat (StepCfg.rspare c + 0x18) 8
      let all := min (StepCfg.rspareLen c) (len + 0x80 + 48 * stripeCount len + 96)
      let s1 := s.readByModule ((List.range all).map (StepCfg.rspare c + ·))
      if !s1.stepping then .next s1
      else match s1.storedImage c with
        | none => .next (s1.restoreFail 6)
        | some m => .next (s1.restoreImage c m spare)
    else if s.steps.chosen ≠ some (AmberImg.seq image) ∨
        (s.spareRanks image).any (fun k => !(spare.any fun x => x.1 == k)) then .next s
    else .next (s.restoreImage c image spare)

end Sys2Proof.Machine
end

