-- ==== Sys2Proof/Machine/Arrays.lean ====
section
/-!
DEFINITION. The main array and the adapter array: XLOAD, MMUL, DCFG, ACFG, DSTAT, ALOAD, AMUL (R83 to R95, R107 to
R110, R463 to R466).
-/
namespace Sys2Proof.Machine

/-- The causes a shape's checks report, in ascending order: types, ranges, windows, blocks, no stationary block, wrong
output or continuation type, depth, then the instruction's own, then the stream engine's. (DEDUCED, log 29). -/
def arrayChecks (s : State) (t : Tile) (h : DrainShape) (c : Option DrainCfg) (streamed : List Operand)
    (rsv badType badRange badWin badBlock noBlock badDepth : Bool) (own : List Check) : List Check :=
  let ops := streamed ++ h.operands
  [chkArr rsv, { bad := badType || h.badType s c, cause := 0x22 }, { bad := badRange, cause := 0x23 },
    { bad := badWin || streamed.any (fun o => !o.inside) || h.badWindow, cause := 0x24 },
    { bad := badBlock, cause := 0x25 }, { bad := noBlock, cause := 0x26 },
    { bad := h.badOutType c, cause := 0x27 }, { bad := badDepth, cause := 0x2A }] ++ own ++ operandChecks t ops

/-- Whether the operands of a shape hold the instruction. -/
def arrayHolds (t : Tile) (h : DrainShape) (streamed : List Operand) : Bool :=
  (streamed ++ h.operands).any fun o => o.holds t

/-- An array operand type (R65). -/
def Operand.arrayOk (o : Operand) (s : State) : Bool := o.typeOk s fun c _ => arrayType c

/-- The width of an operand's elements is 4 bits. -/
def Operand.is4 (o : Operand) (s : State) : Bool := o.typeOk s fun _ t => t.width == 4

/-- A block-type operand's dimension-0 origin is a multiple of its block size. -/
def Operand.blockOk (o : Operand) (s : State) : Bool := o.typeOk s fun _ t => t.block == 0 || match o.win with
  | some w => w.a % t.block == 0
  | none => true

/-- The latched drain record, none on a FIRST or MIDDLE pass (R107). -/
def Tile.latched (t : Tile) (pass : BitVec 2) (adapter : Bool) : Option DrainCfg :=
  if passEnds pass then some (drainCfg (if adapter then t.adpCfg.toList else t.mainCfg.toList)) else none

/-- The shape of a multiply before the latched record adds its operands. -/
def Tile.shape (t : Tile) (c : Option DrainCfg) (pass : BitVec 2) (rowFirst : Bool) (rows cols a0 b0 lane0 : Nat) (stream : Operand) (origin : Nat)
    (dy : BitVec 4) (ws : BitVec 3) (dc : BitVec 4) (rc : BitVec 3) (mp : Option MpRecord) (toMem : Bool) :
    DrainShape :=
  let uses : Bool := match c with
    | some c => c.outEn && toMem
    | none => true
  let h : DrainShape :=
    { rows := rows, cols := cols, rowFirst := rowFirst, a0 := a0, b0 := b0, lane0 := lane0,
      stream := stream, origin := origin,
      out := if uses then some (t.outOperand dy ws true rowFirst a0 b0 rows cols) else none,
      cont := if passContinues pass then some (t.outOperand dc rc false rowFirst a0 b0 rows cols) else none,
      scale := none, bias := none, aux := none, sel := none, mp := mp }
  match c with
  | some c => h.withCfg t c
  | none => h

/-- Load a stationary block: x[n][k] from a window whose (first, second) offsets are those of `pos n k`. -/
def State.loadBlock (s : State) (p : TileId) (o : Operand) (klen nlen : Nat) (pos : Nat → Nat → Nat × Nat) :
    Stationary :=
  { etype := match o.win with
      | some w => w.desc.etype
      | none => 0
    klen := klen, nlen := nlen,
    x := (List.range nlen).map fun n => (List.range klen).map fun k => s.elemAt p o.win (pos n k).1 (pos n k).2 }

/-- x[n][k] of a stationary block. -/
def Stationary.at (b : Stationary) (n k : Nat) : FVal := (b.x.getD n []).getD k FVal.zero

/-- XLOAD (R83): the stationary block is replaced. -/
def opXload (p : TileId) (dx : BitVec 4) (rs : BitVec 3) (sa : BitVec 5) (klen : BitVec 10) (nlen : BitVec 6)
    (rsv : BitVec 30) (s : State) : TileOp :=
  let t := s.tile p
  let v := t.reg sa
  let k := klen.toNat
  let n := nlen.toNat
  let o := t.operand dx rs false (lo32 v) (hi32 v) k n
  TileOp.mk p (Layout.xload dx rs sa klen nlen rsv) 8 [sa]
    ([chkArr (rsv != 0), { bad := !o.arrayOk s, cause := 0x22 },
      { bad := k == 0 || decide (512 < k) || n == 0 || decide (32 < n), cause := 0x23 },
      { bad := !o.inside, cause := 0x24 }, { bad := !o.blockOk s, cause := 0x25 },
      { bad := decide (256 < k) && !o.is4 s, cause := 0x2A }] ++ operandChecks t [o])
    (o.holds t) true fun s =>
      let b := s.loadBlock p o k n fun n k => (k, n)
      ((s.thenTile p fun u => { u with stationary := some b }).countOperands p [o]).faultOperands p [o]

def execXload (p : TileId) (dx : BitVec 4) (rs : BitVec 3) (sa : BitVec 5) (klen : BitVec 10) (nlen : BitVec 6)
    (rsv : BitVec 30) (s : State) :
    Host.Outcome State Fault Refusal := s.run (opXload p dx rs sa klen nlen rsv s)

/-- MMUL (R84, R87): y[n][m] for the rows m of W against the stationary block. -/
def opMmul (p : TileId) (dw : BitVec 4) (rs : BitVec 3) (dy : BitVec 4) (ws : BitVec 3) (sa sb : BitVec 5)
    (pass : BitVec 2) (dc : BitVec 4) (rc : BitVec 3) (rsv : BitVec 25) (s : State) : TileOp :=
  let t := s.tile p
  let m0 := lo32 (t.reg sa)
  let k0 := hi32 (t.reg sa)
  let n0 := lo32 (t.reg sb)
  let mlen := hi32 (t.reg sb)
  let b := t.stationary.getD ⟨0, 1, 1, []⟩
  let c := t.latched pass false
  let w := t.operand dw rs false k0 m0 b.klen mlen
  let h := t.shape c pass true mlen b.nlen m0 n0 0 w k0 dy ws dc rc none true
  TileOp.mk p (Layout.mmul dw rs dy ws sa sb pass dc rc rsv) 8 [sa, sb]
    (arrayChecks s t h c [w] (rsv != 0) (!w.arrayOk s) (mlen == 0) false (!w.blockOk s || h.badBlock s c)
      t.stationary.isNone (decide (256 < b.klen) && !w.is4 s) [])
    (arrayHolds t h [w]) true fun s =>
      (s.drain p h c false [w]
        (s.totals p h b.klen b.at fun r k => s.elemAt p w.win k r)).modTile p fun u =>
          { u with arr := { u.arr with rows := u.arr.rows + BitVec.ofNat 32 mlen } }

def execMmul (p : TileId) (dw : BitVec 4) (rs : BitVec 3) (dy : BitVec 4) (ws : BitVec 3) (sa sb : BitVec 5)
    (pass : BitVec 2) (dc : BitVec 4) (rc : BitVec 3) (rsv : BitVec 25) (s : State) :
    Host.Outcome State Fault Refusal := s.run (opMmul p dw rs dy ws sa sb pass dc rc rsv s)

/-- DCFG and ACFG: the record read and checked, then latched by later instructions (R107, R108). (DEDUCED, log 32). -/
def cfgOp (s : State) (p : TileId) (word : W64) (sx : BitVec 5) (rsv : Bool) (adapter : Bool) : TileOp :=
  let t := s.tile p
  let off := (t.reg sx).toNat
  let badOff := off % 32 != 0 || decide (sramBytes < off + 32)
  let r := s.rdBytes (sramBase p.1 + off) 32
  let curves : Option Image := match s.job with
    | some j => j.curves
    | none => none
  let c := drainCfg r
  TileOp.mk p word 8 [sx]
    [chkArr rsv, { bad := badOff || drainInvalid s.formats curves adapter r, cause := 0x28 },
      { bad := (if adapter then t.adpStat else t.mainStat).rebaseBad c, cause := 0x29 }] false true fun s =>
      s.thenTile p fun u =>
        let u := u.modStat adapter fun st => st.rebase c
        let v : Vector Byte 32 := Vector.ofFn fun i => r.getD i.1 0
        if adapter then { u with adpCfg := v } else { u with mainCfg := v }

def opDcfg (p : TileId) (sx : BitVec 5) (rsv : BitVec 53) (s : State) : TileOp :=
  cfgOp s p (Layout.dcfg sx rsv) sx (rsv != 0) false

def execDcfg (p : TileId) (sx : BitVec 5) (rsv : BitVec 53) (s : State) :
    Host.Outcome State Fault Refusal := s.run (opDcfg p sx rsv s)

def opAcfg (p : TileId) (sx : BitVec 5) (rsv : BitVec 53) (s : State) : TileOp :=
  cfgOp s p (Layout.acfg sx rsv) sx (rsv != 0) true

def execAcfg (p : TileId) (sx : BitVec 5) (rsv : BitVec 53) (s : State) :
    Host.Outcome State Fault Refusal := s.run (opAcfg p sx rsv s)

/-- A record of the launch's statistics area (R129), of which WSTAT lies at an odd multiple of 32. (DEDUCED, log 113). -/
def State.statRecordAt (s : State) (a : Nat) : Bool :=
  decide (s.statsAt ≤ a) && decide (a < s.statsAt + s.statsLen) && (a - s.statsAt) % 96 == 0

/-- DSTAT: the drain's record is written to tile SRAM or sent to the memory port's atomic unit, then emptied when
clr = 1; the base stays as configured. Its table asks a DDR target of a multiple of 64, and R129 merges into records that are none:
those of the statistics area are taken as well. (DEDUCED, log 32, 113). -/
def opDstat (p : TileId) (sx : BitVec 5) (dst clr src : Bool) (rsv : BitVec 50) (s : State) : TileOp :=
  let t := s.tile p
  let a := (t.reg sx).toNat
  let bad := if dst then (a % 64 != 0 && !s.statRecordAt a) || !s.inDdr a 96 else a % 32 != 0 || decide (sramBytes < a + 96)
  TileOp.mk p (Layout.dstat sx dst clr src rsv) 8 [sx] [chkArr (rsv != 0), { bad := bad, cause := 0x24 }]
    (decide (16 ≤ t.statMerges.length)) true fun s =>
      let st := if src then t.adpStat else t.mainStat
      let s := if dst then s else s.wrBytes (sramBase p.1 + a) st.image
      s.thenTile p fun u =>
        let u := if dst then { u with statMerges := u.statMerges ++ [⟨u.issueNo, src, a, st⟩] } else u
        if clr then u.modStat src fun st => { StatRec.empty with hbase := st.hbase, binw := st.binw } else u

def execDstat (p : TileId) (sx : BitVec 5) (dst clr src : Bool) (rsv : BitVec 50) (s : State) :
    Host.Outcome State Fault Refusal := s.run (opDstat p sx dst clr src rsv s)

/-- ALOAD (R93): cell (i, j) holds A[j][i]. -/
def opAload (p : TileId) (da : BitVec 4) (rs : BitVec 3) (sa : BitVec 5) (ilen jlen : BitVec 6) (rsv : BitVec 34)
    (s : State) : TileOp :=
  let t := s.tile p
  let v := t.reg sa
  let i := ilen.toNat
  let j := jlen.toNat
  let o := t.operand da rs false (lo32 v) (hi32 v) i j
  TileOp.mk p (Layout.aload da rs sa ilen jlen rsv) 8 [sa]
    ([chkArr (rsv != 0), { bad := !o.typeIs 0x0C, cause := 0x22 },
      { bad := i == 0 || decide (32 < i) || j == 0 || decide (32 < j), cause := 0x23 },
      { bad := !o.inside, cause := 0x24 }] ++ operandChecks t [o])
    (o.holds t) true fun s =>
      let b := s.loadBlock p o i j fun j i => (i, j)
      ((s.thenTile p fun u => { u with adapter := some b }).countOperands p [o]).faultOperands p [o]

def execAload (p : TileId) (da : BitVec 4) (rs : BitVec 3) (sa : BitVec 5) (ilen jlen : BitVec 6) (rsv : BitVec 34)
    (s : State) :
    Host.Outcome State Fault Refusal := s.run (opAload p da rs sa ilen jlen rsv s)

/-- AMUL (R93): y[t][j] for the activation vectors x_t against the adapter block. -/
def opAmul (p : TileId) (dx : BitVec 4) (rs : BitVec 3) (dout : BitVec 4) (ws : BitVec 3) (sa sb : BitVec 5)
    (pass : BitVec 2) (dc : BitVec 4) (rc : BitVec 3) (rsv : BitVec 25) (s : State) : TileOp :=
  let t := s.tile p
  let t0 := lo32 (t.reg sa)
  let i0 := hi32 (t.reg sa)
  let tlen := lo32 (t.reg sb)
  let j0 := hi32 (t.reg sb)
  let b := t.adapter.getD ⟨0, 1, 1, []⟩
  let c := t.latched pass true
  let x := t.operand dx rs false i0 t0 b.klen tlen
  let h := t.shape c pass false tlen b.nlen j0 t0 32 x i0 dout ws dc rc none true
  TileOp.mk p (Layout.amul dx rs dout ws sa sb pass dc rc rsv) 8 [sa, sb]
    (arrayChecks s t h c [x] (rsv != 0) (!x.typeIs 0x0C) (tlen == 0) false (h.badBlock s c) t.adapter.isNone false [])
    (arrayHolds t h [x]) true fun s =>
      s.drain p h c true [x] (s.totals p h b.klen b.at fun r i => s.elemAt p x.win i r)

def execAmul (p : TileId) (dx : BitVec 4) (rs : BitVec 3) (dout : BitVec 4) (ws : BitVec 3) (sa sb : BitVec 5)
    (pass : BitVec 2) (dc : BitVec 4) (rc : BitVec 3) (rsv : BitVec 25) (s : State) :
    Host.Outcome State Fault Refusal := s.run (opAmul p dx rs dout ws sa sb pass dc rc rsv s)

end Sys2Proof.Machine
end

