-- ==== Sys2Proof/Machine/Backward.lean ====
section
/-!
DEFINITION. The backward instructions: XLOADT, DXMUL, DWMUL and LFMT (R112 to R122, R128, R139).
-/
namespace Sys2Proof.Machine

/-- A turned operand breaks R114 (cause 0x2B). (DEDUCED, log 28). -/
def Operand.turnBad (o : Operand) (s : State) : Bool := !o.typeOk s fun c t => match o.win with
  | some w => turnedOk c t w.a
  | none => true

/-- Whether a backward instruction waits for the turn buffer, which serves turned reads in issue order (R115). (DESIGN CHOICE, log 12). -/
def Tile.turnHolds (t : Tile) : Bool := t.turnBefore (t.issueNo + 1)

/-- XLOADT (R116): cell (i, j) holds the element at dimension 0 = j0 + j, dimension 1 = i0 + i. -/
def opXloadt (p : TileId) (dx : BitVec 4) (rs : BitVec 3) (sa : BitVec 5) (klen : BitVec 10) (nlen : BitVec 6)
    (rsv : BitVec 30) (s : State) : TileOp :=
  let t := s.tile p
  let v := t.reg sa
  let k := klen.toNat
  let n := nlen.toNat
  let o := t.operand dx rs false (hi32 v) (lo32 v) n k
  TileOp.mk p (Layout.xloadt dx rs sa klen nlen rsv) 8 [sa]
    ([chkArr (rsv != 0), { bad := !o.arrayOk s, cause := 0x22 },
      { bad := k == 0 || decide (512 < k) || n == 0 || decide (32 < n), cause := 0x23 },
      { bad := !o.inside, cause := 0x24 }, { bad := decide (256 < k) && !o.is4 s, cause := 0x2A },
      { bad := o.turnBad s, cause := 0x2B }] ++ operandChecks t [o])
    (o.holds t || t.turnHolds) true fun s =>
      let b := s.loadBlock p o k n fun n k => (n, k)
      ((s.thenTile p fun u => { u with stationary := some b }).countOperands p [o]).faultOperands p [o]

def execXloadt (p : TileId) (dx : BitVec 4) (rs : BitVec 3) (sa : BitVec 5) (klen : BitVec 10) (nlen : BitVec 6)
    (rsv : BitVec 30) (s : State) :
    Host.Outcome State Fault Refusal := s.run (opXloadt p dx rs sa klen nlen rsv s)

/-- The micro-program that dmode = 1 names, when it is defined (R122). -/
def State.microProg (s : State) (id : BitVec 4) : Option MpRecord := match s.job with
  | some j => match j.mprog with
    | some img => if mpDefined img id.toNat then some (mpRecord img id.toNat) else none
    | none => none
  | none => none

/-- Count the rows that a multiply has streamed (R109). -/
def State.countRows (s : State) (p : TileId) (n : Nat) : State :=
  s.modTile p fun u => { u with arr := { u.arr with rows := u.arr.rows + BitVec.ofNat 32 n } }

/-- DXMUL (R117, R121, R122): dX[n][k0 + r] over the columns of W against the stationary dY. -/
def opDxmul (p : TileId) (dw : BitVec 4) (rs : BitVec 3) (dy : BitVec 4) (ws : BitVec 3) (sa sb : BitVec 5)
    (pass : BitVec 2) (dc : BitVec 4) (rc : BitVec 3) (dmode : Bool) (mpid : BitVec 4) (rsv : BitVec 20) (s : State) : TileOp :=
  let t := s.tile p
  let k0 := lo32 (t.reg sa)
  let m0 := hi32 (t.reg sa)
  let n0 := lo32 (t.reg sb)
  let rows := hi32 (t.reg sb)
  let b := t.stationary.getD ⟨0, 1, 1, []⟩
  let c := t.latched pass false
  let w := t.operand dw rs false k0 m0 rows b.klen
  let mp := s.microProg mpid
  let usesMp := dmode && c.isSome
  let h := t.shape c pass true rows b.nlen k0 n0 0 w m0 dy ws dc rc (if usesMp then mp else none) true
  let bad2C := usesMp && (!(c.any (·.cmode)) || match mp with
    | some r => r.draws != 0
    | none => true)
  TileOp.mk p (Layout.dxmul dw rs dy ws sa sb pass dc rc dmode mpid rsv) 8 [sa, sb]
    (arrayChecks s t h c [w] (rsv != 0) (!w.arrayOk s) (rows == 0) false (h.badBlock s c) t.stationary.isNone
      (decide (256 < b.klen) && !w.is4 s) [{ bad := w.turnBad s, cause := 0x2B }, { bad := bad2C, cause := 0x2C }])
    (arrayHolds t h [w] || t.turnHolds) true fun s =>
      (s.drain p h c false [w] (s.totals p h b.klen b.at fun r m => s.elemAt p w.win r m)).countRows p rows

def execDxmul (p : TileId) (dw : BitVec 4) (rs : BitVec 3) (dy : BitVec 4) (ws : BitVec 3) (sa sb : BitVec 5)
    (pass : BitVec 2) (dc : BitVec 4) (rc : BitVec 3) (dmode : Bool) (mpid : BitVec 4) (rsv : BitVec 20) (s : State) :
    Host.Outcome State Fault Refusal := s.run (opDxmul p dw rs dy ws sa sb pass dc rc dmode mpid rsv s)

/-- The fabric send that a write slot is armed for. -/
def Tile.fabricSlot (t : Tile) (ws : BitVec 3) : Option FabricSend := match t.wslot ws with
  | .fabric f => some f
  | _ => none

/-- The grouping of R119 is not one it allows (cause 0x2D); `stride` is the output's dimension-1 stride, none where
nothing is written through it. -/
def groupBad (t : EType) (rows cols : Nat) (stride : Option Int) : Bool :=
  t.block != 0 && !((t.block == 16 || t.block == 32) && (cols % t.block == 0 ||
    (t.block % cols == 0 && rows % (t.block / cols) == 0 && match stride with
      | some x => x * 8 == (cols * t.width : Nat)
      | none => true)))

/-- The first output is not at the beginning of a block (cause 0x25). (DEDUCED, log 29). -/
def groupOrigin (t : EType) (cols j0 m0 : Nat) : Bool :=
  t.block != 0 && (if cols % t.block = 0 then j0 % t.block != 0 else (m0 * cols + j0) % t.block != 0)

/-- The wire blocks of a drained output, in flattened order: whole groups only (R128). (DEDUCED, log 31). -/
def wireBlocks (t : EType) (cols : Nat) (v : Nat → Nat → FVal) (o : DrainOut) : List WireBlock :=
  let n := wireElems t
  (List.range (o.codes.length / n)).map fun g =>
    { scale := match o.scales[g]? with
        | some x => x.2.2
        | none => 0
      codes := (o.codes.drop (g * n)).take n |>.map (·.2.2)
      nonfin := (List.range n).any fun i => (v ((g * n + i) / cols) ((g * n + i) % cols)).nonFinite }

/-- Hand wire blocks to the slot in order; beyond its NB blocks the tile takes cause 0x76 (R343). -/
def State.handBlocks (p : TileId) (ws : BitVec 3) (pc : BitVec 48) (word : W64) : List WireBlock → State → State
  | [], s => s
  | w :: l, s => match s.handBlock p ws w with
    | some s1 => State.handBlocks p ws pc word l s1
    | none => s.programFaultAt p 0x76 pc word

/-- DWMUL (R118, R119, R128): dW[m0 + r][j0 + j] over the rows of dY against the stationary x. -/
def opDwmul (p : TileId) (dd : BitVec 4) (rs : BitVec 3) (dg : BitVec 4) (ws : BitVec 3) (sa sb : BitVec 5)
    (pass : BitVec 2) (dc : BitVec 4) (rc : BitVec 3) (gs : Bool) (rsv : BitVec 24) (s : State) : TileOp :=
  let t := s.tile p
  let m0 := lo32 (t.reg sa)
  let t0 := hi32 (t.reg sa)
  let j0 := lo32 (t.reg sb)
  let rows := hi32 (t.reg sb)
  let b := t.stationary.getD ⟨0, 1, 1, []⟩
  let c := t.latched pass false
  let d := t.operand dd rs false m0 t0 rows b.klen
  let h := t.shape c pass false rows b.nlen j0 m0 0 d t0 dg ws dc rc none (!gs)
  let ot : Option EType := match c with
    | some c => if c.outEn then s.etype c.outType else none
    | none => none
  let stride : Option Int := match h.out with
    | some { win := some w, .. } => some (w.desc.stride.toList.getD w.desc.fold 0)
    | _ => none
  let bad2D := match ot with
    | some x => groupBad x rows b.nlen stride
    | none => false
  let bad25 := !gs && match ot with
    | some x => groupOrigin x b.nlen j0 m0
    | none => false
  let bad2E := gs && (c.isNone || match t.fabricSlot ws with
    | some f => c.any fun c => c.outType != f.etype
    | none => true)
  let word := Layout.dwmul dd rs dg ws sa sb pass dc rc gs rsv
  TileOp.mk p word 8 [sa, sb]
    (arrayChecks s t h c [d] (rsv != 0) (!d.arrayOk s) (rows == 0) false bad25 t.stationary.isNone
      (decide (256 < b.klen) && !d.is4 s)
      [{ bad := d.turnBad s, cause := 0x2B }, { bad := bad2D, cause := 0x2D }, { bad := bad2E, cause := 0x2E }])
    (arrayHolds t h [d] || t.turnHolds) true fun s =>
      let total := s.totals p h b.klen b.at fun r k => s.elemAt p d.win r k
      if !gs then (s.drain p h c false [d] total).countRows p rows
      else match c with
        | none => s
        | some c =>
          let r := (s.takeTotals p h).drainFull p h c false total
          let s1 := match r.out with
            | some (x, o) => State.handBlocks p ws (t.pc.truncate 48) word (wireBlocks x b.nlen r.value o) r.state
            | none => r.state
          (((s1.wrList r.sel).countOperands p (d :: h.operands)).tilePoison p (s.operandPoison p (d :: h.operands))).countRows p rows

def execDwmul (p : TileId) (dd : BitVec 4) (rs : BitVec 3) (dg : BitVec 4) (ws : BitVec 3) (sa sb : BitVec 5)
    (pass : BitVec 2) (dc : BitVec 4) (rc : BitVec 3) (gs : Bool) (rsv : BitVec 24) (s : State) :
    Host.Outcome State Fault Refusal := s.run (opDwmul p dd rs dg ws sa sb pass dc rc gs rsv s)

/-- LFMT (R120): the 64-bit entry of a layer. -/
def opLfmt (p : TileId) (sd sl : BitVec 5) (rsv : BitVec 48) (s : State) : TileOp :=
  let l := ((s.tile p).reg sl).toNat % 4096
  let (base, n) : Nat × Nat := match s.job with
    | some j => (j.layerFmt, j.nlayer)
    | none => (0, 0)
  let a := base + 0x10 + 8 * l
  (TileOp.mk p (Layout.lfmt sd sl rsv) 8 [sd, sl]
    [chkArr (rsv != 0), { bad := base == 0 || decide (n ≤ l), cause := 0x2F }] false false fun s =>
      (s.thenTile p fun u => u.setReg sd (s.rd64 a)).readByTile p ((List.range 8).map (a + ·))).inSmem (.lfmt p sd sl rsv)
    (some sd) (s.tile p).smemStalled

def execLfmt (p : TileId) (sd sl : BitVec 5) (rsv : BitVec 48) (s : State) :
    Host.Outcome State Fault Refusal := s.run (opLfmt p sd sl rsv s)

end Sys2Proof.Machine
end

