-- ==== Sys2Proof/Machine/Fabric.lean ====
section
/-!
DEFINITION. Discovery and the peer map, the join, relaying and its NOROUTE, and ABORT (R316 to R319, R325 to R331, R351,
R467).
-/
namespace Sys2Proof.Machine

/-! ### Discovery (R316 to R318) -/

namespace State

/-- The bytes 0x000 to 0x11F of a discovery frame before its signature, then the signature. (DESIGN CHOICE, log 66). -/
def discoveryBody (s : State) (q : PlaneId) (c : PairId) (nonce echo : List Byte) : List Byte :=
  let tag : Nat := match s.job with
    | some j => j.jobtag.toNat
    | none => 0
  leBytes 0x31435344 4 ++ leBytes q.1 1 ++ leBytes c.1 1 ++ leBytes tag 2 ++ ownFpr ++ nonce ++ echo ++ ownKey ++
    List.replicate 7 0

/-- The reset map entry of a pair with its nonce drawn. -/
def drawNonce (s : State) (q : PlaneId) (c : PairId) : List Byte × State :=
  match (s.mapEntry q c).nonceTx with
  | some n => (n, s)
  | none =>
    let n := leBytes (Config.freeValue s.freeCtr).toNat 8 ++ leBytes (Config.freeValue (s.freeCtr + 1)).toNat 8
    let s := { s with freeCtr := s.freeCtr + 2 }
    (n, s.setMapEntry q c { s.mapEntry q c with nonceTx := some n })

def plainFrame (tag : BitVec 16) (kind : Byte) (payload : List Byte) : Frame :=
  { tag := tag, kind := kind, via := false, src := 0, dst := 0, group := 0, nblk := 0, dstid := 0, coll := 0, fidx := 0,
    arg := 0, nfmask := 0, payload := payload }

end State

/-- A discovery frame leaves on an UP data pair (R316). -/
def execDiscoverySend (q : PlaneId) (c : PairId) (s : State) : Host.Outcome State Fault Refusal :=
  s.whenPowered fun s =>
  if c = 0 ∨ !(s.pair q c).canSend then .next s
  else
    let (nonce, s) := s.drawNonce q c
    let rx := (s.mapEntry q c).nonceRx
    let echo := if rx.isEmpty then List.replicate 16 0 else rx
    let body := s.discoveryBody q c nonce echo
    let k := s.freeCtr
    let zero := echo.all (· == 0)
    let sig := if zero then List.replicate 96 0 else ownSign k body
    let s := if zero then s else { s with freeCtr := k + 1 }
    .next (s.linkSend q c (State.plainFrame 0 0 (body ++ sig ++ List.replicate 1760 0)) none)

/-- The fields of a received discovery frame (R316). -/
def Discovery.fpr (l : List Byte) : List Byte := (l.drop 8).take 48
def Discovery.nonce (l : List Byte) : List Byte := (l.drop 0x38).take 16
def Discovery.echo (l : List Byte) : List Byte := (l.drop 0x48).take 16
def Discovery.key (l : List Byte) : List Byte := (l.drop 0x58).take 97
def Discovery.sig (l : List Byte) : List Byte := (l.drop 0xC0).take 96

/-- The frame names the peer of pair c on plane q (R317). -/
def Discovery.names (q : PlaneId) (c : PairId) (l : List Byte) : Bool :=
  c != 0 && Image.field l 0 4 == 0x31435344 && Image.field l 4 1 == q.1 && Image.field l 5 1 == (32 - c.1) % 32 &&
    sha384 (Discovery.key l) == Discovery.fpr l

/-- The frame authenticates the peer on the pair (R317). -/
def Discovery.auth (m : MapEntry) (l : List Byte) : Bool :=
  (match m.nonceTx with
    | some n => Discovery.echo l == n
    | none => false) && ecdsaVerify (Discovery.key l) (l.take 0xC0) (Discovery.sig l)

namespace State

/-- The pair names this fingerprint: it is mapped to it, or left unmapped by a conflict over it. -/
def namesPeer (s : State) (q : PlaneId) (c : PairId) (fpr : List Byte) : Bool :=
  let m := s.mapEntry q c
  (m.valid && s.fabric.peers[m.peer]? == some fpr) || (m.conflict && m.cand == fpr)

/-- The other pairs of a plane that name the peer of pair c. -/
def rivals (s : State) (q : PlaneId) (c : PairId) (fpr : List Byte) : List PairId :=
  allPairs.filter fun d => d != c && s.namesPeer q d fpr

/-- A pair whose peer may not be mapped (R318): the module itself, a peer that also names another pair of the plane, or a 64th
fingerprint. -/
def mapConflictFor (s : State) (q : PlaneId) (c : PairId) (fpr : List Byte) : Bool :=
  fpr == ownFpr || !(s.rivals q c fpr).isEmpty || ((s.peerOf fpr).isNone && decide (63 ≤ s.fabric.peers.length))

/-- Leave a pair unmapped by a conflict over the peer that it names. -/
def leaveUnmapped (s : State) (q : PlaneId) (c : PairId) (fpr : List Byte) (m : MapEntry) : State :=
  s.setMapEntry q c { m with valid := false, auth := false, conflict := true, cand := fpr }

/-- Map a pair to a fingerprint, or leave it unmapped with its conflict: every pair of the plane that names the peer with it.
(DEDUCED, log 67). -/
def mapPair (s : State) (q : PlaneId) (c : PairId) (fpr : List Byte) (m : MapEntry) : State :=
  if s.mapConflictFor q c fpr then
    ((s.rivals q c fpr).foldl (fun s d => s.leaveUnmapped q d fpr (s.mapEntry q d)) (s.leaveUnmapped q c fpr m)).modFabric
      fun b => { b with mapConflict := true, mapReady := false }
  else
    let i := match s.peerOf fpr with
      | some i => i
      | none => s.fabric.peers.length
    let s := s.modFabric fun b =>
      { b with peers := if (s.peerOf fpr).isSome then b.peers else b.peers ++ [fpr], mapReady := false }
    s.setMapEntry q c { m with valid := true, conflict := false, peer := i, cand := [] }

end State

/-- A discovery frame comes in (R317, R318). -/
def State.discoveryIn (s : State) (q : PlaneId) (c : PairId) (payload : List Byte) : State :=
  if !Discovery.names q c payload then s.discard
  else
    let fpr := Discovery.fpr payload
    let m0 := s.mapEntry q c
    let m := { m0 with nonceRx := Discovery.nonce payload }
    let ok := Discovery.auth m payload
    let known := m.valid && s.fabric.peers[m.peer]? == some fpr
    let s1 :=
      if known then s.setMapEntry q c { m with auth := m.auth || ok }
      else if m.valid then
        (s.setMapEntry q c { m with valid := false, auth := false, cand := fpr }).modFabric fun b => { b with mapReady := false }
      else if m.cand.isEmpty || m.cand == fpr then s.mapPair q c fpr { m with auth := ok }
      else s.setMapEntry q c { m with conflict := false, cand := fpr }
    s1.pumpAll

/-- A received discovery frame (R317, R318). -/
def execDiscoveryFrame (q : PlaneId) (c : PairId) (payload : List Byte) (s : State) :
    Host.Outcome State Fault Refusal :=
  s.whenPowered fun s => .next (s.discoveryIn q c payload)

namespace State

/-- Every UP data pair is mapped and authenticated (R318). -/
def mapComplete (s : State) : Bool := allPlanes.all fun q => allPairs.all fun c =>
  c == 0 || !s.isUp (q, c) || ((s.mapEntry q c).valid && (s.mapEntry q c).auth)

end State

/-- 5 ms without a change of mapping (R318). -/
def execMapReady (s : State) : Host.Outcome State Fault Refusal :=
  s.whenPowered fun s =>
  if s.mapComplete then .next (s.modFabric fun b => { b with mapReady := true }) else .next s

/-! ### The join (R325 to R328, R467) -/

/-- The AND of the own present mask and every one received (R326). -/
def Join.andMasks (j : Join) : W32 := j.joins.foldl (fun a x => a &&& x.2) j.present

namespace State

/-- The record of a fingerprint among the first n records of a plan. -/
def recordOf (p : Image) (n : Nat) (fpr : List Byte) : Option Nat :=
  (List.range n).find? fun i => Plan.fpr p i == fpr

/-- A member or relay is present: the module itself, or mapped to an UP data pair (R325). -/
def fprPresent (s : State) (fpr : List Byte) : Bool := fpr == ownFpr || (s.pairsOf fpr).any s.isUp

/-- The mask of the records from `lo` to `hi` - 1 that are present. -/
def presentMask (s : State) (p : Image) (lo hi : Nat) : W32 :=
  BitVec.ofNat 32 (((List.range hi).filter fun i => decide (lo ≤ i) && s.fprPresent (Plan.fpr p i)).map (2 ^ ·)).sum

def ownTag (s : State) : BitVec 16 := match s.job with
  | some j => j.jobtag
  | none => 0

/-- The job rank of a member; before J is formed, and of one outside it, its plan rank (DESIGN CHOICE, log 66). -/
def Join.rankField (j : Join) (d : Nat) : BitVec 8 := BitVec.ofNat 8 ((j.jobRank d).getD d)

/-- JOIN or CONFIRM to every present member over its paths (R326, R329): its fields in the payload. (DESIGN CHOICE, log 66). -/
def sendJoinTo (s : State) (j : Join) (confirm : Bool) (mask : W32) : State :=
  let payload := ownFpr ++ leBytes (Plan.seq j.plan) 4 ++ leBytes (Plan.check j.plan).toNat 8 ++
    leBytes s.ownTag.toNat 2 ++ leBytes mask.toNat 4 ++ leBytes (if confirm then 1 else 0) 1
  ((maskRanks j.present).filter (· != j.rank)).foldl (fun s d =>
    s.sendPlan d { plainFrame s.ownTag 6 payload with
      src := Join.rankField j j.rank, dst := Join.rankField j d, dstid := dstId (Plan.fpr j.plan d) }) s

def setJoin (s : State) (j : Join) : State := s.modFabric fun b => { b with job := some j }

/-- The join goes on as far as the messages received allow (R326): J, the CONFIRMs, completion. -/
def joinStep (s : State) : State :=
  match s.fabric.job with
  | none => s
  | some j =>
    let others := (maskRanks j.present).filter (· != j.rank)
    let n := Plan.nmemb j.plan
    let s := match j.j with
      | some _ => s
      | none =>
        if others.all fun d => j.joins.any fun x => x.1 == d then
          let m := j.andMasks
          let k := (maskRanks m).length
          let j := { j with j := some m }
          let s := s.setJoin j
          if !m.getLsbD j.rank || decide (k < Plan.minrank j.plan) || (!Plan.close j.plan && k != n) then
            s.moduleProgFault 0x7A
          else (s.sendJoinTo j true m).checkPeers
        else s
    match s.fabric.job with
    | some j => match j.j with
      | some m =>
        if j.joined || !s.launchActive then s
        else if j.confirms.any fun x => x.2 != m then s.moduleProgFault 0x7A
        else if ((maskRanks m).filter (· != j.rank)).all fun d => j.confirms.any fun x => x.1 == d then
          ((s.setJoin { j with joined := true }).startColls).restoreStart
        else s
      | none => s
    | none => s

/-- A JOIN of the own job (R326). (DEDUCED, log 67). -/
def takeJoin (s : State) (m : JoinMsg) : State :=
  match s.fabric.job with
  | none => s.discard
  | some j =>
    if j.joined then (if m.jobtag != s.ownTag then s.discard else s)
    else if m.seq.toNat != Plan.seq j.plan || m.check != Plan.check j.plan || m.jobtag != s.ownTag then
      s.moduleProgFault 0x79
    else if j.j.isSome then s
    else match recordOf j.plan (Plan.nmemb j.plan) m.fpr with
      | some d => (s.setJoin { j with joins := (d, m.present) :: j.joins.filter fun x => x.1 != d }).joinStep
      | none => s.discard

/-- A CONFIRM of the own job. (DEDUCED, log 67). -/
def takeConfirm (s : State) (m : ConfirmMsg) : State :=
  match s.fabric.job with
  | none => s.discard
  | some j =>
    if m.jobtag != s.ownTag then s.discard
    else if j.joined then s
    else if m.seq.toNat != Plan.seq j.plan || m.check != Plan.check j.plan then s.moduleProgFault 0x79
    else match recordOf j.plan (Plan.nmemb j.plan) m.fpr with
      | some d => (s.setJoin { j with confirms := (d, m.j) :: j.confirms.filter fun x => x.1 != d }).joinStep
      | none => s.discard

/-- The fabric's part of an accepted launch (R326, R467). -/
def fabricAccept (s : State) (plan : Image) (copy1 : Bool) : State :=
  let n := Plan.nmemb plan
  let present := s.presentMask plan 0 n
  let rank := (recordOf plan n ownFpr).getD 0
  let j : Join :=
    { plan := plan, copy1 := copy1, rank := rank, present := present, relays := s.presentMask plan n (Plan.nmod plan),
      joins := [], confirms := [], j := none, joined := false, deadGrafts := [], wrr := [] }
  let joins := s.fabric.heldJoins.filter fun m => m.jobtag == s.ownTag
  let confirms := s.fabric.heldConfirms.filter fun m => m.jobtag == s.ownTag
  let s := s.modFabric fun b =>
    { b with job := some j, heldJoins := [], heldConfirms := [], groupCtr := Vector.replicate 16 0, pairCtr := [],
             waiting := [], colls := [], early := [], backlog := [], grafted := [], parts := [], seen8 := [], next8 := [] }
  let s := s.sendJoinTo j false present
  let differs (seq : W32) (check : W64) : Bool := seq.toNat != Plan.seq plan || check != Plan.check plan
  if (joins.any fun m => differs m.seq m.check) || confirms.any fun m => differs m.seq m.check then s.moduleProgFault 0x79
  else confirms.foldl takeConfirm (joins.foldl takeJoin s.joinStep)

/-- The fabric's part of the end of a launch: nothing of the job is left, and held messages go (R351, R467); but the frames that a
launch sent and ended DONE without waiting for still go by its paths. (DEDUCED, log 64). -/
def fabricEnd (s : State) (done : Bool) : State := s.modFabric fun b =>
  { b with job := none, heldJoins := [], heldConfirms := [], waiting := [], colls := [], early := [], backlog := [],
           directWait := match b.job with
             | some j =>
               if done then b.directWait ++ b.backlog.map fun x => ((s.pathsTo j x.1).filter fun p => p.weight != 0, x.2)
               else b.directWait
             | none => b.directWait
           grafted := [], ended := match b.job with
             | some j => some (s.ownTag, j)
             | none => b.ended
           parts := [], seen8 := [], next8 := [] }

/-- ABORT with the END of this module's launch, to the members of J or to those present at acceptance, over their paths; one
that must wait keeps them (R351). (DESIGN CHOICE, log 66). -/
def sendAbort (s : State) (endCode : BitVec 3) : State :=
  match s.fabric.job with
  | none => s
  | some j =>
    let dests := (maskRanks (j.j.getD j.present)).filter (· != j.rank)
    dests.foldl (fun s d =>
      let f : Frame := { plainFrame s.ownTag 7 (leBytes endCode.toNat 1) with
        src := Join.rankField j j.rank, dst := Join.rankField j d, dstid := dstId (Plan.fpr j.plan d) }
      (s.trySend d f).getD (s.sendPaths ((s.pathsTo j d).filter fun p => p.weight != 0) f)) s

end State

namespace State

/-- A JOIN comes in (R326, R467): held before acceptance, else checked and used. -/
def joinIn (s : State) (m : JoinMsg) : State :=
  if s.job.isNone then s.modFabric fun b => { b with heldJoins := b.heldJoins.filter (fun x => x.fpr != m.fpr) ++ [m] }
  else s.takeJoin m

/-- A CONFIRM comes in (R326, R467). -/
def confirmIn (s : State) (m : ConfirmMsg) : State :=
  if s.job.isNone then
    s.modFabric fun b => { b with heldConfirms := b.heldConfirms.filter (fun x => x.fpr != m.fpr) ++ [m] }
  else s.takeConfirm m

/-- A JOIN or a CONFIRM, as its frame spells it. -/
def joinFrame (s : State) (f : Frame) : State :=
  let l := f.payload
  let n (o k : Nat) : Nat := leNat ((l.drop o).take k)
  let seq : W32 := BitVec.ofNat 32 (n 48 4)
  let check : W64 := BitVec.ofNat 64 (n 52 8)
  let mask : W32 := BitVec.ofNat 32 (n 62 4)
  if n 66 1 = 0 then s.joinIn ⟨l.take 48, seq, check, BitVec.ofNat 16 (n 60 2), mask⟩
  else s.confirmIn ⟨l.take 48, seq, check, BitVec.ofNat 16 (n 60 2), mask⟩

end State

/-- A received JOIN (R326, R467). -/
def execJoin (m : JoinMsg) (s : State) : Host.Outcome State Fault Refusal := s.whenPowered fun s => .next (s.joinIn m)

/-- A received CONFIRM (R326, R467). -/
def execConfirm (m : ConfirmMsg) (s : State) : Host.Outcome State Fault Refusal :=
  s.whenPowered fun s => .next (s.confirmIn m)

/-- JOINMS has elapsed (R326). -/
def execJoinTimeout (s : State) : Host.Outcome State Fault Refusal :=
  match s.fabric.job with
  | some j => if j.joined then .next s else .next (s.moduleProgFault 0x78)
  | none => .next s

/-! ### Relays (R330, R331, R333) -/

/-- A graft frame comes in on pair c of plane q (R330): counted, and served in its turn at the rim (R331). -/
def State.relayIn (s : State) (q : PlaneId) (c : PairId) (f : Frame) : State :=
  (s.modFabric fun b =>
    { b with relayed := b.relayed.set q (b.relayed[q] + 1), relayWait := b.relayWait ++ [(q, c, f)] }).serveRim

/-- A graft frame arrives at this module on pair c of plane q (R330). -/
def execGraftRelay (q : PlaneId) (c : PairId) (f : Frame) (s : State) : Host.Outcome State Fault Refusal :=
  s.whenPowered fun s => if !f.via ∨ !(s.plane q).run then .next s else .next (s.relayIn q c f)

/-- R334: a frame of another tag or, once the join is complete, one whose SRC is no member or whose DST is another rank.
(DESIGN CHOICE, log 66). -/
def State.foreign (s : State) (j : Join) (f : Frame) : Bool :=
  f.tag != s.ownTag || (j.joined && (decide (j.members.length ≤ f.src.toNat) || f.dst.toNat != j.ownRank))

/-- The frame that came back waits for its acknowledgement again. -/
def Coll.await (c : Coll) (f : Frame) : Coll :=
  if c.group == f.group.toNat && c.number == f.coll.toNat && f.kind != 2 && !c.unacked.contains (f.dst.toNat, f.fidx.toNat) then
    { c with unacked := c.unacked ++ [(f.dst.toNat, f.fidx.toNat)] }
  else c

/-- A NOROUTE for a frame of this module (R330, R334): the graft's weight becomes 0 and the frame goes by another path; its end may
be the loss of the peer (R350). (DESIGN CHOICE, log 63). -/
def State.norouteIn (s : State) (relayFpr : List Byte) (m : Frame) : State :=
  let s := s.modFabric fun b => { b with noroute := satAdd32 b.noroute 1 }
  match s.fabric.job with
  | none => s.discard
  | some j =>
    if s.foreign j m then s.discard
    else match State.returned s m with
      | none => s
      | some f => match State.recordOf j.plan (Plan.nmod j.plan) relayFpr, memberOf j f with
        | some r, some d =>
          let s := s.setJoin { j with deadGrafts := (d, r) :: j.deadGrafts.filter (· != (d, r)) }
          let s := s.modFabric fun b =>
            { b with resent := satAdd32 b.resent 1, grafted := b.grafted.erase f, colls := b.colls.map (·.await f) }
          (s.sendNow d f).checkPeers
        | _, _ => s

/-- A received NOROUTE (R330). -/
def execNoroute (relayFpr : List Byte) (m : Frame) (s : State) : Host.Outcome State Fault Refusal :=
  s.whenPowered fun s => .next (s.norouteIn relayFpr m)

/-! ### ABORT (R351) -/

/-- An ABORT comes in: R334 judges its TAG, and its ranks once the join is complete; its payload is the sender's END.
(DESIGN CHOICE, log 66). -/
def State.abortIn (s : State) (f : Frame) : State :=
  match s.fabric.job with
  | none => s.discard
  | some j =>
    if s.foreign j f then s.discard
    else if leNat (f.payload.take 1) = 4 then s.moduleHwFault 0x89
    else s.cancelLaunch

/-- A received ABORT ends the own launch. -/
def execAbort (src : Origin) (endCode : BitVec 3) (s : State) : Host.Outcome State Fault Refusal :=
  s.whenPowered fun s => .next (s.abortIn (abortOf src endCode))

end Sys2Proof.Machine
end

