-- ==== Sys2Proof/Machine/Light.lean ====
section
/-!
DEFINITION. The light path: rings, codewords, margin tests, HOLD, failed pairs and combs (R283 to R309).
-/
namespace Sys2Proof.Machine

/-- The bits of OPT_EVENT and CMB_EVENT. -/
def optHoldEnter : Nat := 0
def optPairFail : Nat := 1
def optPairBack : Nat := 2
def optMarginFail : Nat := 3
def optWriteWhileRun : Nat := 4
def optTuneBad : Nat := 5
def cmbWarm : Nat := 0
def cmbSwitch : Nat := 1
def cmbCold : Nat := 2
def cmbAFail : Nat := 3
def cmbBFail : Nat := 4
def cmbBothLost : Nat := 5
def cmbForceIgnored : Nat := 6

namespace State

def optEvent (s : State) (q : PlaneId) (bit : Nat) : State :=
  s.modPlane q fun x => { x with event := x.event ||| BitVec.ofNat 6 (2 ^ bit) }

def modCombs (s : State) (f : Combs → Combs) : State := { s with light := { s.light with combs := f s.light.combs } }

def cmbEvent (s : State) (bit : Nat) : State :=
  s.modCombs fun x => { x with event := x.event ||| BitVec.ofNat 7 (2 ^ bit) }

/-- Every transmit lane is dark: not running, no working comb, or after a shutdown of optical cause (R306, R307, R431, R443). -/
def lanesDark (s : State) : Bool := !s.powered || !s.light.combs.lit || s.power.optShutdown

end State

/-! ### The tuning table (R295) -/

def tunePower (w : W32) : Int := (w.toNat % 65536 : Nat)
def tuneOffset (w : W32) : Int := (BitVec.extractLsb' 16 16 w).toInt

/-- A tuning table is valid. -/
def Plane.tuneValid (x : Plane) : Bool :=
  let n := x.tuneN.toNat
  let w (i : Nat) : W32 := x.tune.getD i 0
  decide (2 ≤ n) && decide (n ≤ 16) &&
    ((List.range (n - 1)).all fun i => decide (tunePower (w i) < tunePower (w (i + 1)))) &&
    ((List.range n).all fun i => decide (-8000 ≤ tuneOffset (w i)) && decide (tuneOffset (w i) ≤ 8000)) &&
    (List.range 16).all fun i => decide (i < n) || w i == 0

/-- The offset at P_near by linear interpolation, as a fraction (R295). -/
def Plane.offsetAt (x : Plane) (p : Int) : Int × Nat :=
  let n := x.tuneN.toNat
  let w (i : Nat) : W32 := x.tune.getD i 0
  if p ≤ tunePower (w 0) then (tuneOffset (w 0), 1)
  else match (List.range (n - 1)).find? fun i => decide (p < tunePower (w (i + 1))) with
    | none => (tuneOffset (w (n - 1)), 1)
    | some i =>
      let d := tunePower (w (i + 1)) - tunePower (w i)
      (tuneOffset (w i) * d + (tuneOffset (w (i + 1)) - tuneOffset (w i)) * (p - tunePower (w i)), d.toNat)

/-- The nine rows by four columns of tiles nearest fabric port q (R20, R295). -/
def nearTile (q : PlaneId) (p : TileId) : Bool :=
  let row := p.1 / 32
  let col := p.1 % 32
  col / 4 == q.1 % 8 && (if q.1 < 8 then decide (row < 9) else decide (27 ≤ row))

/-- Every 10 µs: P_near over the powers given, pruned tiles as 0 W, and the offset it selects. -/
def execTuneFeedforward (q : PlaneId) (powers : List (TileId × Nat)) (s : State) : Host.Outcome State Fault Refusal :=
  s.whenPowered fun s =>
  let x := s.plane q
  let near := powers.filter fun w => nearTile q w.1 && s.l2p.contains w.1
  let p : Int := ((near.map (·.2)).foldl (· + ·) 0 : Nat)
  if x.ffEn && x.tuneValid then
    let o := x.offsetAt p
    .next (s.modPlane q fun y => { y with offsetNum := o.1, offsetDen := o.2 })
  else .next s

/-- The heater register for a loop value: the offset added when feed-forward runs, within 0 to 800 GHz (R294).
(DESIGN CHOICE, log 59). -/
def Plane.heater (x : Plane) (loop : BitVec 16) : BitVec 16 :=
  let off : Int :=
    if !x.ffEn || !x.tuneValid then 0
    else if x.offsetNum % (x.offsetDen : Int) = 0 then x.offsetNum / (x.offsetDen : Int)
    else Config.heaterRound x.offsetNum x.offsetDen
  BitVec.ofInt 16 (max 0 (min 8000 ((loop.toNat : Int) + off)))

/-! ### Searches (R297, R301, R302) -/

/-- A heater value in 0.1 GHz, corrected for a change of OPT_DIE_TEMP: the resonance moves by 9.6 GHz per kelvin, 12 units for
each 0.125 °C, and the heater makes up for it. -/
def predicted (heater then_ now : BitVec 16) : Int := (heater.toNat : Int) - 12 * (now.toInt - then_.toInt)

/-- The search of a ring from its lock seed: ±100 GHz about it as it stands (R297), or corrected for the change of OPT_DIE_TEMP
since it was taken (R302); without a seed a full sweep. -/
def LightRing.seedSearch (r : LightRing) (now : Option (BitVec 16)) : Search := match r.seed with
  | some k => ⟨some (predicted k.heater k.temp (now.getD k.temp)), 1000⟩
  | none => ⟨none, 0⟩

/-- A heater value lies in the search. -/
def Search.admits (x : Search) (heater : BitVec 16) : Bool := match x.centre with
  | some c => decide (c - x.span ≤ heater.toNat) && decide ((heater.toNat : Int) ≤ c + x.span)
  | none => true

/-- A ring holds its lock point within 1.5 GHz (R294). -/
def LightRing.locked (r : LightRing) : Bool := decide (r.err.toNat ≤ 15)

/-- A ring of a held pair that lost lock searches ±100 GHz about the point predicted from the change of OPT_DIE_TEMP since its
last lock (R301). -/
def LightRing.seekRelock (r : LightRing) (now : BitVec 16) : LightRing :=
  { r with seek := if r.locked then none else some ⟨some (predicted r.lastLock.heater r.lastLock.temp now), 1000⟩ }

/-- A loop update of a ring (R294): its heater and its lock error. A ring that searches takes no value outside its search (R297,
R301, R302). (DEDUCED, log 57). -/
def LightRing.update (r : LightRing) (search : Option Search) (heater err temp : BitVec 16) : LightRing :=
  if search.all (·.admits heater) then
    { r with heater := heater, err := err, lastLock := if err.toNat ≤ 15 then ⟨heater, temp⟩ else r.lastLock }
  else r

/-- A ring is acquired at a heater value that its search admits, which becomes its lock seed (R297). (DEDUCED, log 57). -/
def LightRing.acquired (r : LightRing) (search : Option Search) (heater temp : BitVec 16) : LightRing :=
  if search.all (·.admits heater) then
    { r with heater := heater, lastLock := ⟨heater, temp⟩, seek := none, seed := some ⟨heater, temp⟩ }
  else r

def Pair.seekRelock (x : Pair) (now : BitVec 16) : Pair := { x with tx := x.tx.seekRelock now, rx := x.rx.seekRelock now }

/-- The rings of a pair search no more. -/
def Pair.found (x : Pair) : Pair := { x with tx := { x.tx with seek := none }, rx := { x.rx with seek := none } }

/-- Both rings hold their lock points. -/
def Pair.ringsLocked (x : Pair) : Bool := x.tx.locked && x.rx.locked

namespace State

/-- Where the rings of a pair search, modulator and drop ring: in start acquisition from their lock seeds as they stand (R297). -/
def searches (s : State) (q : PlaneId) (c : PairId) : Option Search × Option Search :=
  let x := s.pair q c
  if s.light.combs.pilots && x.state != .test && x.state != .up then (some (x.tx.seedSearch none), some (x.rx.seedSearch none))
  else (x.tx.seek, x.rx.seek)

/-- The points at which line c lies, in units of 0.1 GHz of heater shift, by each locked ring of its transmit bus (R287, R302): its
heater value, corrected for the two rings' own frequencies and for the colours, 400 GHz apart; the heater shifts a ring down.
(DESIGN CHOICE, log 59). -/
def busPoints (s : State) (q : PlaneId) (c : PairId) : List Int :=
  let locked (d : PairId) : Bool :=
    let y := s.pair q d
    d != c && (y.state == .up || y.state == .hold || y.state == .test) && y.tx.locked
  (allPairs.filter locked).map fun d =>
    ((s.pair q d).tx.heater.toNat : Int) + (Config.ringRest q.1 c.1 - Config.ringRest q.1 d.1) - 4000 * ((c.1 : Int) - d.1)

/-- The search of the modulator ring of a failed pair (R302): ±20 GHz about the point that the locked rings of its bus give, else
from its lock seed. (DESIGN CHOICE, log 59). -/
def busSearch (s : State) (q : PlaneId) (c : PairId) : Search := match s.busPoints q c with
  | [] => (s.pair q c).tx.seedSearch (some (s.plane q).dieTemp)
  | p :: l => ⟨some (if l.all (· == p) then p else Config.busPoint (p :: l)), 200⟩

/-- A failed pair searches again (R302): its modulator ring by prediction, its drop ring from its lock seed. -/
def seekAgain (s : State) (q : PlaneId) (c : PairId) (x : Pair) : Pair :=
  { x with tx := { x.tx with seek := some (s.busSearch q c) },
           rx := { x.rx with seek := some (x.rx.seedSearch (some (s.plane q).dieTemp)) } }

end State

/-! ### Pairs -/

/-- A pair waiting in ACQUIRE runs its margin test once its receive lane has codeword lock and both rings hold their
lock points within 1.5 GHz (R297, R301). (DEDUCED, log 57). -/
def Pair.tryTest (x : Pair) : Pair :=
  if x.state = .acquire ∧ x.lock ∧ x.ringsLocked then { x.found with state := .test, testCount := 0 }
  else x

/-- A pair acquires: ACQUIRE, unless the module's transmit lanes are dark (R297, R306, R307). -/
def State.acquire (s : State) (x : Pair) : Pair := if s.lanesDark then x else ({ x with state := .acquire } : Pair).tryTest

namespace State

/-- A HOLD condition on a pair (R300, R309): an UP pair enters HOLD; a margin test is aborted and the pair relocks
before it tests again from zero. (DEDUCED, log 57). -/
def holdPair (s : State) (q : PlaneId) (c : PairId) (cause : BitVec 2) : State :=
  match (s.pair q c).state with
  | .up =>
    let now := (s.plane q).dieTemp
    { (s.modPair q c fun x =>
        ({ x with state := .hold, holdCause := cause, holds := satAdd32 x.holds 1, calm := 0, lastResend := none } : Pair).seekRelock now).optEvent q
        optHoldEnter with health := { s.health with holds := s.health.holds + 1 } }
  | .test =>
    let now := (s.plane q).dieTemp
    s.modPair q c fun x => ({ x with state := .acquire } : Pair).seekRelock now
  | _ => s

/-- A pair leaves service as failed (R302): OUT, PAIR_FAIL, its unacknowledged frames handed back, and the peers
checked (R350). -/
def failPair (s : State) (q : PlaneId) (c : PairId) : State :=
  let frames := (s.pair q c).unacked
  let s := (s.modPair q c fun x => { x with state := .out, failed := true, unacked := [], toResend := 0,
                                            resent := none, lastResend := none }).optEvent q optPairFail
  (s.handBack frames).checkPeers

end State

/-- A pair may leave HOLD (R301): both rings within 1.5 GHz for 20 µs, codeword lock, the peer reporting UP. (DEDUCED, log 57). -/
def Pair.mayExit (x : Pair) : Bool :=
  x.state == .hold && x.ringsLocked && decide (10 ≤ x.calm) && x.lock && x.peerRx == 2

/-- Leave HOLD: the replay, then waiting frames (R301). -/
def State.leaveHold (s : State) (q : PlaneId) (c : PairId) : State :=
  (((s.modPair q c fun x => { x.found with state := .up }).linkReplay q c).pumpAll)

/-- Every 2 µs: heaters, lock errors, the effort registers, and HOLD beyond 6 GHz. In the 100 µs after a pause marker the drop
ring's loop is frozen and no HOLD is entered (R294, R300, R305). A ring of a pair in HOLD that shows no lock searches (R301). (DEDUCED, log 57; DESIGN CHOICE, log 58). -/
def execRingLockUpdate (q : PlaneId) (c : PairId) (errTx errRx loopTx loopRx slew dieTemp : BitVec 16) (s : State) :
    Host.Outcome State Fault Refusal :=
  s.whenPowered fun s =>
  let pl := s.plane q
  -- 500 updates of 32 pairs in 1 ms
  let effort := ((max errTx.toNat errRx.toNat, slew.toNat) :: pl.effort).take 16000
  let s := s.modPlane q fun x =>
    { x with dieTemp := dieTemp, effort := effort,
             lockErrMax := BitVec.ofNat 16 ((effort.map (·.1)).foldl max 0),
             slewMax := BitVec.ofNat 16 ((effort.map (·.2)).foldl max 0) }
  let s := s.modPair q c fun x =>
    let k := s.searches q c
    let y := { x with tx := x.tx.update k.1 (pl.heater loopTx) errTx dieTemp,
                      rx := if x.pauseLeft = 0 then x.rx.update k.2 (pl.heater loopRx) errRx dieTemp else x.rx }
    let y : Pair := { y with calm := if y.ringsLocked then x.calm + 1 else 0 }
    if y.state = .hold then y.seekRelock dieTemp else y
  if (60 < errTx.toNat ∨ 60 < errRx.toNat) ∧ (s.pair q c).pauseLeft = 0 then .next (s.holdPair q c 0)
  else .next (s.modPair q c Pair.tryTest)

/-- The colour a pair's receive lane carries (R285). -/
def rxColour (c : PairId) : Nat := (32 - c.1) % 32

/-- A received codeword (R292, R293, R300): a lane without lock holds its pair, unless a pause marker came within 100 µs (R305).
(DEDUCED, log 57; DESIGN CHOICE, log 58). -/
def execCodeword (q : PlaneId) (c : PairId) (w : Codeword) (s : State) : Host.Outcome State Fault Refusal :=
  s.whenPowered fun s =>
  let x := s.pair q c
  let fits := w.correctable && w.colour.toNat == rxColour c
  let bad := dataDiscarded w
  let good := if fits then x.good + 1 else 0
  let nbad := if fits then 0 else x.bad + 1
  let lock := if x.lock then decide (nbad < 4) else decide (8 ≤ good)
  let recent := ((!w.correctable) :: x.recent).take 16
  let pause := if fits && !bad && w.kind == 2 then 7812 else x.pauseLeft - 1
  let y := { x with good := good, bad := nbad, lock := lock, recent := recent, pauseLeft := pause,
                    clean := if bad then some 0 else x.clean.map (· + 640), nakWait := x.nakWait - 1,
                    testCount := if x.state = .test then x.testCount + (if w.correctable then w.corrected else 16)
                                 else x.testCount,
                    fecCorr := satAdd32 x.fecCorr (if w.correctable then w.corrected else 0),
                    fecUnc := satAdd32 x.fecUnc (if bad then 1 else 0),
                    peerRx := if fits && !bad then w.rxState else x.peerRx }
  let s := s.setPair q c y
  if pause == 0 && (!lock || decide (2 ≤ (recent.filter id).length)) then .next (s.holdPair q c 1)
  else if pause == 0 && fits && !bad && w.rxState == 3 then .next (s.holdPair q c 3)
  else
    let s := s.modPair q c Pair.tryTest
    -- the peer's report of UP lets waiting frames go (R298)
    .next (if y.state = .up ∧ y.peerRx = 2 ∧ x.peerRx ≠ 2 then (s.linkResend q c).pumpAll else s)

/-- Leaving HOLD (R301). -/
def execHoldExit (q : PlaneId) (c : PairId) (s : State) : Host.Outcome State Fault Refusal :=
  .next (if (s.pair q c).mayExit then s.leaveHold q c else s)

/-- The end of a margin test (R298, R302): its count is that of the codewords received in it, with the errors of those that no
command brought one by one. (DEDUCED, log 57). -/
def execMarginTestDone (q : PlaneId) (c : PairId) (errors : Nat) (s : State) : Host.Outcome State Fault Refusal :=
  let x := s.pair q c
  if x.state ≠ .test then .next s
  else
    let errors := x.testCount + errors
    let x := { x with testErr := satAdd32 0 errors, testCount := 0 }
    if errors ≤ 1030792 then
      let s := s.setPair q c x.enterUp
      .next ((if x.failed then s.optEvent q optPairBack else s).pumpAll)
    else
      .next (((s.setPair q c { x with state := .out, outMargin := true, failed := false }).optEvent q
        optMarginFail).checkPeers)

/-- A pair held for 20 ms is failed (R302); where it may leave HOLD at the same update, the relock wins (R309). -/
def execPairFail (q : PlaneId) (c : PairId) (s : State) : Host.Outcome State Fault Refusal :=
  if (s.pair q c).mayExit then .next (s.leaveHold q c)
  else if (s.pair q c).state = .hold then .next (s.failPair q c)
  else .next s

/-- Every second a failed pair acquires again (R302), while its plane runs. -/
def execPairRetry (q : PlaneId) (c : PairId) (s : State) : Host.Outcome State Fault Refusal :=
  s.whenPowered fun s =>
  let x := s.pair q c
  if x.state = .out ∧ x.failed ∧ (s.plane q).run then
    .next (s.setPair q c (s.acquire (s.seekAgain q c x)))
  else .next s

/-- A pair OUT by margin test acquires again after 20 ms without light (R302). -/
def execNoLightTimeout (q : PlaneId) (c : PairId) (s : State) : Host.Outcome State Fault Refusal :=
  s.whenPowered fun s =>
  let x := s.pair q c
  if x.state = .out ∧ x.outMargin ∧ !x.light ∧ (s.plane q).run then
    .next (if s.lanesDark then s else s.setPair q c (s.acquire (s.seekAgain q c { x with outMargin := false })))
  else .next s

/-- The peer's light arrives or vanishes (R297). -/
def execPeerLight (q : PlaneId) (c : PairId) (present : Bool) (s : State) : Host.Outcome State Fault Refusal :=
  s.whenPowered fun s =>
  let x := { s.pair q c with light := present }
  let y : Pair :=
    if present ∧ x.state = .dark ∧ (s.plane q).run then s.acquire x
    else if !present ∧ (x.state = .acquire) ∧ !x.failed then { x with state := .dark, lock := false, good := 0 }
    else x
  .next (s.setPair q c y)

namespace State

/-- The rings of a pair are acquired (R297), each at its heater value: the modulator ring by its line's pilot, the drop ring only
with codeword lock. -/
def takeSeed (s : State) (x : PlaneId × PairId × Option (BitVec 16) × Option (BitVec 16)) : State :=
  let now := (s.plane x.1).dieTemp
  let k := s.searches x.1 x.2.1
  s.modPair x.1 x.2.1 fun y =>
    { y with
      tx := match x.2.2.1 with
        | some h => y.tx.acquired k.1 h now
        | none => y.tx
      rx := match x.2.2.2 with
        | some h => if y.lock then y.rx.acquired k.2 h now else y.rx
        | none => y.rx }

/-- The seeds of every pair go to the copy in flash that was not written last (R297, R396). -/
def storeSeeds (s : State) : State :=
  { s with nv := { s.nv with
      oldSeeds := s.nv.seeds, seedCopy := !s.nv.seedCopy,
      seeds := (s.light.pairs.filter fun x => x.2.tx.seed.isSome || x.2.rx.seed.isSome).map fun x =>
        (x.1, x.2.tx.seed, x.2.rx.seed) } }

end State

/-- Start acquisition ends: pilots stop and the new lock seeds go to flash (R297); without pilots none runs (R288). -/
def execRingAcquired (seeds : List (PlaneId × PairId × Option (BitVec 16) × Option (BitVec 16))) (s : State) :
    Host.Outcome State Fault Refusal :=
  s.whenPowered fun s =>
  if !s.light.combs.pilots then .next s
  else .next ((seeds.foldl State.takeSeed s).storeSeeds.modCombs fun x => { x with pilots := false })

/-! ### Combs -/

/-- The spare's state, and setting it. -/
def Combs.spare (x : Combs) : CombState := if x.active then x.a else x.b
def Combs.setSpare (x : Combs) (v : CombState) : Combs := if x.active then { x with a := v } else { x with b := v }
def Combs.setActive (x : Combs) (v : CombState) : Combs := if x.active then { x with b := v } else { x with a := v }

namespace State

/-- The switch flips (R305): the old working comb is FAILED, the spare WORKING; the new lines' powers are free values
and become their references. (DESIGN CHOICE, log 59). -/
def flipCombs (s : State) : State :=
  let old := s.light.combs.active
  let k := s.freeCtr
  let power : Vector (BitVec 16) 32 := Vector.ofFn fun i => (Config.freeValue (k + i.1)).truncate 16
  let s := { s with freeCtr := k + 32 }
  (s.modCombs fun x =>
    { (x.setActive .failed).setSpare .working with
      active := !x.active, switches := if x.switches = 0xFF then x.switches else x.switches + 1,
      power := power, ref := power, below2 := Vector.replicate 32 0, below1 := Vector.replicate 32 0 }).cmbEvent
        (if old then cmbBFail else cmbAFail)

/-- Every lane pair of the module. -/
def everyPair : List (PlaneId × PairId) := allPlanes.flatMap fun q => allPairs.map fun c => (q, c)

/-- At a warm switch every transmit lane sends two pause-marker codewords (R305). -/
def sendPauses (s : State) : State :=
  let l := allPlanes.flatMap fun q => allPairs.map fun c => (q, c, s.light.sent.length)
  { s with light := { s.light with pauses := s.light.pauses ++ l ++ l } }

/-- Each modulator ring moves by the measured offset between the two combs' lines of its colour, at most 1 GHz, a free value
(R288, R305). (DESIGN CHOICE, log 59). -/
def moveModulators (s : State) : State :=
  let k := s.freeCtr
  let off (c : Nat) : Int := (((Config.freeValue (k + c)).toNat % 21 : Nat) : Int) - 10
  let s := { s with freeCtr := k + 32 }
  everyPair.foldl (fun s x =>
    if (s.pair x.1 x.2).tx.heater = 0 then s
    else s.modPair x.1 x.2 fun y =>
      { y with tx := { y.tx with heater := BitVec.ofInt 16 (max 0 (min 8000 ((y.tx.heater.toNat : Int) + off x.2.1))) } }) s

/-- A warm switch (R305): the lanes pause and resume with replay; held pairs stay in HOLD (R309). -/
def warmSwitch (s : State) : State :=
  let s := s.sendPauses.flipCombs.moveModulators.cmbEvent cmbSwitch
  (everyPair.foldl (fun s x => if s.isUp x then s.linkReplay x.1 x.2 else s) s).pumpAll

/-- A cold switch (R305): all data pairs enter HOLD. -/
def coldSwitch (s : State) : State :=
  let s := s.flipCombs.cmbEvent cmbCold
  everyPair.foldl (fun s x => if x.2 = 0 then s else s.holdPair x.1 x.2 2) s

/-- A switch is due (R305): warm with a LOCKED spare, cold with one that is IDLE or LOCKING. -/
def switchDue (s : State) : State :=
  match s.light.combs.spare with
  | .locked => s.warmSwitch
  | .idle => s.coldSwitch
  | .locking => s.coldSwitch
  | _ => s

/-- The spare's warm-up (R305). -/
def warmUp (s : State) : State :=
  if s.light.combs.spare = .idle then (s.modCombs fun x => x.setSpare .locking).cmbEvent cmbWarm else s

end State

/-- The lower median of a list of margins (R304). (DESIGN CHOICE, log 58). -/
def lowerMedian (l : List Nat) : Option Nat :=
  let rec insert (x : Nat) : List Nat → List Nat
    | [] => [x]
    | y :: ys => if x ≤ y then x :: y :: ys else y :: insert x ys
  (l.foldl (fun a x => insert x a) [])[(l.length - 1) / 2]?

/-- The line margin M_c (R304). (DESIGN CHOICE, log 58). -/
def State.lineMargin (s : State) (c : PairId) : Option Nat :=
  let ps := (allPlanes.filter fun q => s.isUp (q, c)).map fun q => s.pair q c
  let ms := (ps.map fun x => if c = 0 then x.margin.toNat else x.peerMargin.toNat).filter (· != 0xFF)
  lowerMedian ms

/-- Every 100 µs: receive margins, line margins, warm-up and switch (R304, R305). -/
def execMarginEstimate (est : List (PlaneId × PairId × BitVec 8)) (s : State) : Host.Outcome State Fault Refusal :=
  s.whenPowered fun s =>
  let s := est.foldl (fun s x => s.modPair x.1 x.2.1 fun y => { y with margin := x.2.2 }) s
  let ms : Vector (Option Nat) 32 := Vector.ofFn fun c => s.lineMargin c
  let least := (List.finRange 32).foldl (fun (b : Option (Nat × PairId)) c => match ms[c] with
    | none => b
    | some m => match b with
      | none => some (m, c)
      | some x => if m < x.1 then some (m, c) else some x) none
  let s := s.modCombs fun x =>
    { x with
      margin := Vector.ofFn fun c => match ms[c] with
        | some m => BitVec.ofNat 8 m
        | none => 0xFF
      below2 := Vector.ofFn fun c => match ms[c] with
        | some m => if m < 20 then x.below2[c] + 1 else 0
        | none => 0
      below1 := Vector.ofFn fun c => match ms[c] with
        | some m => if m < 10 then x.below1[c] + 1 else 0
        | none => 0
      marginMin := match least with
        | some y => BitVec.ofNat 8 y.1
        | none => 0xFF
      worstLine := match least with
        | some y => y.2
        | none => 0 }
  let cb := s.light.combs
  let s := if cb.below2.toList.any fun n => decide (10 ≤ n) then s.warmUp else s
  if cb.below1.toList.any fun n => decide (2 ≤ n) then .next s.switchDue else .next s

/-- The tap power of working line c (R305): a fall of 3.0 dB or more below its reference makes a switch due. -/
def execTapPowerDrop (c : PairId) (power : BitVec 16) (s : State) : Host.Outcome State Fault Refusal :=
  s.whenPowered fun s =>
  let ref := s.light.combs.ref[c]
  let s := s.modCombs fun x => { x with power := x.power.set c power }
  if 300 ≤ ref.toInt - power.toInt then .next s.switchDue else .next s

/-- LOCKING ends (R305). -/
def execSpareLocked (s : State) : Host.Outcome State Fault Refusal :=
  s.whenPowered fun s =>
  if s.light.combs.spare = .locking then .next (s.modCombs fun x => x.setSpare .locked) else .next s

namespace State

/-- Every transmit lane goes dark: no pair can carry frames (R306, R307). -/
def darkenAll (s : State) : State :=
  everyPair.foldl (fun s x =>
    let st := (s.pair x.1 x.2).state
    if st = .up ∨ st = .hold then s.failPair x.1 x.2
    else if st = .acquire ∨ st = .test then s.modPair x.1 x.2 fun y => { y with state := .dark }
    else s) s

end State

/-- A comb fails (R306): a failed working comb makes a switch due, or with no spare BOTH_LOST and cause 0x87; a failed
spare only sets its event. -/
def execCombFail (combB : Bool) (s : State) : Host.Outcome State Fault Refusal :=
  s.whenPowered fun s =>
  let x := s.light.combs
  if x.combNone then .next s
  else if combB == x.active then
    let sp := x.spare
    if sp = .locked ∨ sp = .idle ∨ sp = .locking then .next s.switchDue
    else
      let s := ((s.modCombs fun y => y.setActive .failed).cmbEvent (if combB then cmbBFail else cmbAFail)).cmbEvent
        cmbBothLost
      .next ((s.moduleHwFault 0x87).darkenAll)
  else .next ((s.modCombs fun y => y.setSpare .failed).cmbEvent (if combB then cmbBFail else cmbAFail))

def execForceWarm (s : State) : Host.Outcome State Fault Refusal :=
  s.whenPowered fun s => .next s.warmUp

def execForceSwitch (s : State) : Host.Outcome State Fault Refusal :=
  s.whenPowered fun s =>
  if s.light.combs.spare = .locked then .next s.warmSwitch else .next (s.cmbEvent cmbForceIgnored)

/-- The transmit lanes light up: a pair whose peer's light is there already acquires (R297). -/
def State.acquireLit (s : State) : State :=
  State.everyPair.foldl (fun s x =>
    let y := s.pair x.1 x.2
    if y.light ∧ y.state = .dark ∧ (s.plane x.1).run then s.setPair x.1 x.2 (s.acquire y) else s) s

/-- The start's choice of the working comb (R288, R307): it begins start acquisition with its pilots. A comb that does not qualify
is FAILED and sets its event. -/
def execCombWorking (aOk bOk : Bool) (power : Vector (BitVec 16) 32) (s : State) :
    Host.Outcome State Fault Refusal :=
  s.whenPowered fun s =>
  .next (State.acquireLit (s.modCombs fun x =>
    { x with a := if aOk then .working else .failed,
             b := if aOk then (if bOk then .idle else .failed) else if bOk then .working else .failed,
             active := !aOk && bOk, combNone := !aOk && !bOk,
             event := x.event ||| (if aOk then 0 else 0x08) ||| (if bOk then 0 else 0x10),
             power := if aOk || bOk then power else x.power, ref := if aOk || bOk then power else x.ref,
             pilots := aOk || bOk }))

/-! ### Registers -/

/-- A write of OPT_CTL (R295, R309): RUN = 0 darkens the plane and fails its pairs; RUN = 1 with an invalid table is
ignored, and with a valid one lights the plane; FF_EN keeps its value while RUN = 1. (DEDUCED, log 60). -/
def execOptRun (q : PlaneId) (v : W32) (s : State) : Host.Outcome State Fault Refusal :=
  s.whenPowered fun s =>
  let x := s.plane q
  let ff := v.getLsbD 1
  if x.run then
    let s := if ff != x.ffEn then s.optEvent q optWriteWhileRun else s
    if v.getLsbD 0 then .next s
    else .next (allPairs.foldl (fun s c => s.failPair q c) (s.modPlane q fun y => { y with run := false }))
  else
    if v.getLsbD 0 && !x.tuneValid then .next (s.optEvent q optTuneBad)
    else
      let s := s.modPlane q fun y => { y with ffEn := ff, run := v.getLsbD 0 }
      .next (if v.getLsbD 0 then s.acquireLit else s)

/-- A write of OPT_TUNE[n] or OPT_TUNE_N (R295). -/
def State.tuneWrite (s : State) (q : PlaneId) (f : Plane → Plane) : State :=
  if (s.plane q).run then s.optEvent q optWriteWhileRun else s.modPlane q f

def execOptEventClear (q : PlaneId) (v : W32) (s : State) : Host.Outcome State Fault Refusal :=
  .next (s.modPlane q fun x => { x with event := x.event &&& ~~~(v.truncate 6) })

def execCmbEventClear (v : W32) (s : State) : Host.Outcome State Fault Refusal :=
  .next (s.modCombs fun x => { x with event := x.event &&& ~~~(v.truncate 7) })

end Sys2Proof.Machine
end

