-- ==== Sys2Proof/Machine/Health.lean ====
section
/-!
DEFINITION. The health monitor: inputs, risk and state (R372 to R375).
-/
namespace Sys2Proof.Machine

/-! ### The tables (R373, R375) -/

namespace Health

def watchOn (h : Health) : Nat := h.smA.toNat % 1024
def watchOff (h : Health) : Nat := h.smA.toNat / 65536 % 1024
def secureOn (h : Health) : Nat := h.smB.toNat % 1024
def secureN (h : Health) : Nat := h.smB.toNat / 65536 % 16
def coolDown (h : Health) : Nat := h.smB.toNat / 2 ^ 24
def curveX (h : Health) (i n : Nat) : Nat := (h.curve.getD (16 * i + n) 0).toNat % 65536
def curveY (h : Health) (i n : Nat) : Nat := (h.curve.getD (16 * i + n) 0).toNat / 65536 % 1024

/-- The tables may run (R375). Y has ten bits, so no Y is above 1,023. -/
def tableOk (h : Health) : Bool :=
  ((List.range 12).all fun i => (List.range 15).all fun n => decide (h.curveX i n < h.curveX i (n + 1))) &&
    decide (h.watchOff ≤ h.watchOn) && decide (h.watchOn ≤ h.secureOn) && h.secureN != 0 && h.coolDown != 0

/-- The risk of an input by linear interpolation, toward zero, clamped at both ends. -/
def riskOf (h : Health) (i x : Nat) : Nat :=
  if x ≤ h.curveX i 0 then h.curveY i 0
  else match (List.range 15).find? fun n => decide (x < h.curveX i (n + 1)) with
    | none => h.curveY i 15
    | some n =>
      let dx := h.curveX i (n + 1) - h.curveX i n
      let d := x - h.curveX i n
      (h.curveY i n * (dx - d) + h.curveY i (n + 1) * d) / dx

/-- R of R373. -/
def total (r : List Nat) (w : List Nat) : Nat :=
  min 1023 (r.foldl max 0 + ((r.zip w).map fun x => x.1 * x.2).foldl (· + ·) 0 / 4096)

end Health

/-- The index of the largest of a list, the lowest on a tie. -/
def argMax (l : List Nat) : Nat :=
  (l.zipIdx.foldl (fun (b : Nat × Nat) x => if b.1 < x.1 then (x.1, x.2) else b) (l.headD 0, 0)).2

namespace State

/-- The inputs of one evaluation, before saturation (R372). -/
def healthInputs (s : State) : List Nat :=
  let h := s.health
  let ces := h.ceCount.map (·.2)
  let rise (old new : BitVec 16) : Nat := (new.toInt - old.toInt).toNat
  let tjRise (p : TileId) : Nat :=
    if h.first then 0 else rise (((h.lastTj.find? fun x => x.1 == p.1).map (·.2)).getD 0) (s.tile p).therm.tj
  let dieRise (q : PlaneId) : Nat := if h.first then 0 else rise h.lastDie[q] (s.plane q).dieTemp
  let spare := if s.light.combs.active then s.light.combs.a else s.light.combs.b
  let margin := s.light.combs.marginMin.toNat
  [ces.foldl (· + ·) 0, ces.foldl max 0,
    (s.l2p.map fun p => (s.tile p).therm.tj.toInt.toNat).foldl max 0, (s.l2p.map tjRise).foldl max 0,
    h.stretches, (allPlanes.map fun q => (s.plane q).lockErrMax.toNat).foldl max 0, h.holds,
    (allPlanes.map fun q => (allPairs.filter fun c => (s.pair q c).state == .out).length).foldl (· + ·) 0,
    255 - margin, if spare = .idle ∨ spare = .locking ∨ spare = .locked then 0 else 1,
    (allPlanes.map dieRise).foldl max 0, h.warns]

/-- The state after an evaluation of risk r (R374): none for no change. (DEDUCED, log 78). -/
def healthNext (s : State) (r : Nat) : Option (BitVec 3) :=
  let h := s.health
  match h.state.toNat with
  | 0 => if h.watchOn ≤ r then some 1 else none
  | 1 => if h.secureOn ≤ r ∧ h.secureN ≤ h.above + 1 then some 2 else if r < h.watchOff then some 0 else none
  | 3 => if s.isSecuring then none else some 4
  | 4 => if h.cooldown ≤ 1 then some (if h.watchOn ≤ r then 1 else 0) else none
  | _ => none

end State

/-- One evaluation (R372 to R374). With RUN = 0 the inputs are sampled, and the state stays (R375). -/
def execHealthEval (s : State) : Host.Outcome State Fault Refusal :=
  s.whenPowered fun s =>
  let h := s.health
  let x := s.healthInputs.map (min 0xFFFF)
  let h1 := { h with inputs := Vector.ofFn fun i => BitVec.ofNat 16 (x.getD i.1 0), first := false, ceCount := [], stretches := 0,
                     holds := 0, warns := 0, lastTj := s.l2p.map fun p => (p.1, (s.tile p).therm.tj),
                     lastDie := Vector.ofFn fun q => (s.plane q).dieTemp }
  if !h.run then .next { s with health := h1 }
  else
    let r := x.zipIdx.map fun y => h.riskOf y.2 y.1
    let total := Health.total r (h.w.toList.map (·.toNat))
    let next := s.healthNext total
    let h2 := { h1 with r := Vector.ofFn fun i => BitVec.ofNat 10 (r.getD i.1 0), risk := BitVec.ofNat 10 total,
                        worst := BitVec.ofNat 4 (argMax r),
                        above := if h.state = 1 ∧ h.secureOn ≤ total then h.above + 1 else 0,
                        cooldown := h.cooldown - 1 }
    let s1 := { s with health := h2 }
    match next with
    | some v => .next (s1.setHealthState v)
    | none => .next s1

/-- SECURE_NOW (R374); with RUN = 0 the state stays, and the next COMMIT carries SECURE_REQ (R375). -/
def State.secureNow (s : State) : State :=
  if s.health.run = false then { s with health := { s.health with asked := true } }
  else if s.health.state = 0 ∨ s.health.state = 1 ∨ s.health.state = 4 then s.setHealthState 2 else s

def execSecureNow (s : State) : Host.Outcome State Fault Refusal :=
  s.whenPowered fun s => .next s.secureNow

/-- A write of HMN_CTL (R375): RUN = 1 over bad tables is ignored with TABLE_BAD; SECURE_NOW acts by itself. -/
def execHmnRun (v : BitVec 32) (s : State) : Host.Outcome State Fault Refusal :=
  s.whenPowered fun s =>
  let s1 :=
    if v.getLsbD 0 && !s.health.run && !s.health.tableOk then s.hmnEvent hmnTableBad
    else { s with health := { s.health with run := v.getLsbD 0 } }
  .next (if v.getLsbD 1 then s1.secureNow else s1)

def execHmnEventClear (v : BitVec 32) (s : State) : Host.Outcome State Fault Refusal :=
  .next { s with health := { s.health with event := s.health.event &&& ~~~ v.truncate 8 } }

end Sys2Proof.Machine
end

