-- ==== Sys2Proof/Machine/Measure.lean ====
section
/-!
DEFINITION. The measurement registers and their log (R406).
-/
namespace Sys2Proof.Machine

namespace State

/-- Append an entry to the log: with the log full, it is dropped. LOG_90 is set when the log passes 3,686 entries.
(DEDUCED, log 45). -/
def appendLog (s : State) (index : Nat) (extend launch : Bool) (d : List Byte) : State :=
  let x := s.sec
  if 4096 ≤ x.log.length then { s with sec := { x with logFull := true } }
  else
    let n := x.log.length + 1
    { s with sec := { x with log := x.log ++ [⟨index, extend, if launch then s.launch.seq else 0, d⟩],
                             logFull := x.logFull || n == 4096,
                             event := if n = 3687 then x.event ||| 4 else x.event } }

/-- The measurement register of an index, 1 to 10. -/
def measurement (s : State) (index : Nat) : List Byte := s.sec.meas.getD (index - 1) []

/-- Store a measurement register. -/
def putMeasurement (s : State) (index : Nat) (d : List Byte) : State :=
  if h : index - 1 < 10 then { s with sec := { s.sec with meas := s.sec.meas.set (index - 1) d h } } else s

/-- Set a register, with its log entry. -/
def setMeasure (s : State) (index : Nat) (launch : Bool) (d : List Byte) : State :=
  (s.putMeasurement index d).appendLog index false launch d

/-- Extend a register: M := SHA-384(M ‖ d). -/
def extendMeasure (s : State) (index : Nat) (launch : Bool) (d : List Byte) : State :=
  (s.putMeasurement index (sha384 (s.measurement index ++ d))).appendLog index true launch d

/-- A SHA-384 digest, byte by byte. -/
def digest48 (l : List Byte) : List Byte := (List.range 48).map fun i => (sha384 l).getD i 0

/-- Set index 1: the SHA-384 of the boot ROM (R406, R453). -/
def measureRom (s : State) : State := s.setMeasure 1 false (digest48 ((List.range 0x4_0000).map Config.romByte))

/-- Set index 4 from the fuses. (DESIGN CHOICE, log 80). -/
def measureFuses (s : State) : State :=
  s.setMeasure 4 false (digest48 (Config.fuseBytes s.nv.revoked s.nv.minSvn (s.nv.owner.getD []) s.nv.debugLock))

end State

end Sys2Proof.Machine
end

