-- ==== Sys2Proof/WellFormed.lean ====
section
/-!
DEFINITION. Which commands can arise: the bounds that an operand's type does not say. No meaning relies on them: a command that
is not well formed has a meaning too, so that none of the machine's states shuts a command out.
-/
namespace Sys2Proof

/-- Two tiles joined by a mesh link (R36): neighbours in a row or a column. -/
def adjacent (p q : TileId) : Bool :=
  (p.1 / 32 == q.1 / 32 && (p.1 + 1 == q.1 || q.1 + 1 == p.1)) || p.1 + 32 == q.1 || q.1 + 32 == p.1

/-- A failed link joins neighbours (R31). -/
def BringUp.wf (b : BringUp) : Bool := b.linkFail.all fun l => adjacent l.1 l.2

/-- A packet has 1 to 16 flits (R36), and a multicast span lies on the panel (R41). -/
def Packet.wf (k : Packet) : Bool :=
  decide (1 ≤ k.flits) && decide (k.flits ≤ 16) && (match k.dest with
    | .unicast _ => true
    | .attachment _ d => d != .localPort
    | .row r lo hi => decide (r < 36) && decide (lo ≤ hi) && decide (hi < 32)
    | .column c lo hi => decide (c < 32) && decide (lo ≤ hi) && decide (hi < 36))

/-- A frame carries at most 2,048 bytes and 128 wire blocks or rows (R310, R332). -/
def Frame.wf (f : Frame) : Bool := decide (f.payload.length ≤ 2048) && decide (f.nblk.toNat ≤ 128)

/-- A hardware fault cause of R173: 0x80 to 0x83 and 0x85 name a tile, 0x87 to 0x8D none. -/
def causeOk (p : Option TileId) (cause : Byte) : Bool :=
  match p with
  | some _ => decide (0x80 ≤ cause.toNat) && decide (cause.toNat ≤ 0x86)
  | none => cause == 0x84 || (decide (0x86 ≤ cause.toNat) && decide (cause.toNat ≤ 0x8D))

/-- Ports 0 to 3 have receive rings 0 to 7, port 4 ring 0 alone; ring 8 is the transmit ring (R410). -/
def ringOk (p : EthId) (r : Fin 9) : Bool := p != 4 || r == 0 || r == 8

/-- The PMBus command codes of R434. -/
def pmbusCodes : List Nat :=
  [0x01, 0x03, 0x19, 0x1B, 0x57, 0x58, 0x5D, 0x78, 0x79, 0x7C, 0x7D, 0x80, 0x88, 0x89, 0x8D, 0x8E, 0x8F, 0x97, 0x98, 0x99,
    0x9A, 0x9B, 0xD0, 0xD1, 0xD2]

/-- An address in a tile's SRAM window or CSR block (R452). -/
def tileAddr (a : Nat) : Bool :=
  (decide (0x4000_0000_0000 ≤ a) && decide (a < 0x4012_0000_0000)) ||
    (decide (0x7E00_0000_0000 ≤ a) && decide (a < 0x7E00_0480_0000))

/-- A command that can arise. -/
def Instr.wf : Instr → Bool
  | .pwrEnAssert _ _ => true
  | .pgAssert b => b.wf
  | .pwrEnDeassert => true
  | .moduleReset => true
  | .resetRelease b => b.wf
  | .railOutOfRegulation => true
  | .supplyLoss => true
  | .vinLow _ => true
  | .vinHigh _ => true
  | .iinWarn _ => true
  | .undervoltageFault _ => true
  | .overvoltageFault _ => true
  | .overcurrentFault _ => true
  | .shortCircuitFault _ => true
  | .limiterUpdate _ => true
  | .thermalSample _ _ => true
  | .stretchEvent _ _ => true
  | .clockFault _ => true
  | .moduleThermalShutdown _ => true
  | .dimmSensorRead _ _ => true
  | .firmwareEntry => true
  | .recoveryWrite image => decide (image.length ≤ 0x400_0000)
  | .meshOpen _ => true
  | .meshPruneReq _ => true
  | .fieldMapWriteDone _ => true
  | .fieldMapRetry _ => true
  | .meshPacket _ a _ _ => match a with
    | some x => x.2.wf
    | none => true
  | .serviceTreeTimeout _ _ => true
  | .meshSvcErrClear _ => true
  | .start _ => true
  | .cancel _ => true
  | .launchChecks => true
  | .launchIdle => true
  | .hardwareFault p cause => causeOk p cause
  | .hstTallyWrite _ _ => true
  | .hostTallyAdd _ => true
  | .tleSignalWrite _ _ => true
  | .hstRevokeGo _ => true
  | .hstLaunchStatusClear _ => true
  | .hstRevokeStatusClear _ => true
  | .nop _ _ => true
  | .alu _ _ _ _ _ _ => true
  | .alui _ _ _ _ _ _ => true
  | .li _ _ _ _ _ => true
  | .ld _ _ _ _ _ _ _ _ => true
  | .st _ _ _ _ _ _ _ _ => true
  | .br _ _ _ _ _ _ => true
  | .jal _ _ _ _ => true
  | .jr _ _ _ _ => true
  | .mark _ _ _ => true
  | .getv _ _ _ _ => true
  | .fence _ _ _ => true
  | .halt _ _ => true
  | .tset _ _ _ _ => true
  | .signal _ _ _ _ _ _ _ => true
  | .signalRelease _ => true
  | .tallyAdd _ _ => true
  | .memoryCounterAdd _ => true
  | .waitt _ _ _ _ _ _ _ => true
  | .claim _ _ _ _ _ _ => true
  | .claim2 _ _ _ _ _ _ => true
  | .claimArrival _ _ => true
  | .claimReply _ _ => true
  | .revoke _ _ _ _ _ _ => true
  | .lset _ _ _ _ _ _ => true
  | .enterRequest _ => true
  | .enterReply _ => true
  | .lli _ _ _ _ _ _ => true
  | .ljmp _ _ _ _ _ _ => true
  | .lsignal _ _ _ _ _ _ => true
  | .xload _ _ _ _ _ _ _ => true
  | .mmul _ _ _ _ _ _ _ _ _ _ _ => true
  | .dcfg _ _ _ => true
  | .acfg _ _ _ => true
  | .dstat _ _ _ _ _ _ => true
  | .statMerge _ => true
  | .aload _ _ _ _ _ _ _ => true
  | .amul _ _ _ _ _ _ _ _ _ _ _ => true
  | .xloadt _ _ _ _ _ _ _ => true
  | .dxmul _ _ _ _ _ _ _ _ _ _ _ _ _ => true
  | .dwmul _ _ _ _ _ _ _ _ _ _ _ _ => true
  | .lfmt _ _ _ _ => true
  | .vop _ _ _ _ _ _ _ _ _ => true
  | .vter _ _ _ _ _ _ _ _ _ _ => true
  | .vcvt _ _ _ _ _ _ _ _ _ => true
  | .vred _ _ _ _ _ _ _ _ _ => true
  | .vmp _ _ _ _ _ _ _ _ _ _ _ => true
  | .vrand _ _ _ _ _ _ => true
  | .seek _ _ _ _ => true
  | .skey _ _ _ _ => true
  | .gsave _ _ _ _ => true
  | .grest _ _ _ _ => true
  | .genSkip _ _ _ _ => true
  | .dmake _ _ _ _ => true
  | .dbase _ _ _ _ => true
  | .swaph _ _ _ => true
  | .sarm _ _ _ _ _ _ _ _ _ _ => true
  | .copy _ _ _ _ _ _ _ _ _ _ => true
  | .streamSlotComplete _ _ => true
  | .rsel _ _ _ _ _ _ _ => true
  | .rassign _ _ _ _ _ => true
  | .assignCall => true
  | .gather _ _ _ _ _ _ _ _ _ _ _ _ _ => true
  | .scatter _ _ _ _ _ _ _ _ _ _ _ _ _ => true
  | .combine _ _ _ _ _ _ _ _ _ _ _ _ _ => true
  | .ggrad _ _ _ _ _ _ _ _ _ _ _ _ _ => true
  | .ddrRead addr _ _ => addr.toNat % 64 == 0
  | .ddrWrite addr _ _ => addr.toNat % 64 == 0
  | .patrolScrub addr _ => addr.toNat % 64 == 0
  | .rankRetrain _ _ _ => true
  | .atom _ _ _ _ _ _ _ _ => true
  | .gpool _ _ _ _ _ _ _ _ _ => true
  | .gsrow _ _ _ _ _ _ _ _ _ _ => true
  | .updt _ _ _ _ _ _ _ _ => true
  | .unitUpdate _ => true
  | .ringLockUpdate _ _ _ _ _ _ _ _ => true
  | .tuneFeedforward _ _ => true
  | .codeword _ _ w => decide (w.corrected ≤ 15)
  | .holdExit _ _ => true
  | .marginTestDone _ _ _ => true
  | .pairFail _ _ => true
  | .pairRetry _ _ => true
  | .marginEstimate _ => true
  | .tapPowerDrop _ _ => true
  | .spareLocked => true
  | .combFail _ => true
  | .forceWarm => true
  | .forceSwitch => true
  | .dataFrame _ _ h _ f => decide (2120 ≤ h.ago) && f.wf
  | .controlFrame _ _ h _ => decide (72 ≤ h.ago)
  | .replayTimeout _ _ => true
  | .controlFrameDue _ _ => true
  | .optRun _ _ => true
  | .optEventClear _ _ => true
  | .cmbEventClear _ => true
  | .discoverySend _ _ => true
  | .discoveryFrame _ _ payload => payload.length == 2048
  | .join m => m.fpr.length == 48
  | .confirm m => m.fpr.length == 48
  | .joinTimeout => true
  | .transportData f => f.wf
  | .graftRelay _ _ f => f.wf
  | .noroute fpr m => fpr.length == 48 && m.wf && m.kind == 5
  | .grant _ _ _ _ => true
  | .skipMessage _ _ _ _ _ => true
  | .end_ _ _ _ => true
  | .abort _ _ => true
  | .rscat _ _ _ _ _ _ => true
  | .agather _ _ _ _ _ _ => true
  | .a2a _ _ _ _ _ _ => true
  | .bcast _ _ _ _ _ _ => true
  | .srow _ _ _ _ _ _ => true
  | .barrier _ _ _ _ _ _ => true
  | .put _ _ _ _ _ _ => true
  | .get _ _ _ _ _ _ => true
  | .fsendArm _ _ _ _ _ => true
  | .fsendSkip _ _ _ _ _ => true
  | .blockReduce _ _ _ => true
  | .rowReduce _ _ _ => true
  | .arrival => true
  | .commitMessage _ => true
  | .commitTimeout => true
  | .stepCommit => true
  | .stripe m => decide (m.bytes.length ≤ 0x400_0000)
  | .stripeAck _ _ _ _ => true
  | .seal _ _ => true
  | .healthEval => true
  | .secureNow => true
  | .hmnRun _ => true
  | .hmnEventClear _ => true
  | .inv m => m.copies.all fun x => decide (x.rank < 32)
  | .restoreFetchDone _ _ => true
  | .flashGo => true
  | .eraseOnly => true
  | .flashDone => true
  | .hstFlashStatusClear _ => true
  | .maintenanceCommand _ => true
  | .enrol _ => true
  | .measure _ => true
  | .svnCommit _ => true
  | .secEventClear _ => true
  | .getVersion => true
  | .getCapabilities => true
  | .negotiateAlgorithms _ _ => true
  | .getDigests => true
  | .getCertificate _ _ _ => true
  | .challenge _ nonce => nonce.length == 32
  | .getMeasurements _ signed nonce => !signed || nonce.length == 32
  | .unsupportedRequest code => !([0x81, 0x82, 0x83, 0x84, 0xE0, 0xE1, 0xE3].contains code.toNat)
  | .ethRxFrame _ frame _ _ _ => decide (14 ≤ frame.length)
  | .ringTailWrite p r _ => ringOk p r
  | .ethTxDescriptor _ => true
  | .ethRun _ _ => true
  | .ringSizeWrite p r _ => ringOk p r
  | .ethPEventClear _ _ => true
  | .cageResetRelease p => p != 4
  | .memUeAddrClear _ _ => true
  | .rtuErrClear _ => true
  | .pwrEventClear _ => true
  | .pwrCapWrite _ => true
  | .operation _ => true
  | .clearFaults => true
  | .capability => true
  | .smbalertMask _ _ => true
  | .vinOvWarnLimit _ => true
  | .vinUvWarnLimit _ => true
  | .iinOcWarnLimit _ => true
  | .statusByte => true
  | .statusWord => true
  | .statusInput => true
  | .statusTemperature => true
  | .statusMfrSpecific => true
  | .readVin => true
  | .readIin => true
  | .readTemperature1 => true
  | .readTemperature2 => true
  | .readTemperature3 => true
  | .readPin => true
  | .pmbusRevision => true
  | .mfrId => true
  | .mfrModel => true
  | .mfrRevision => true
  | .mfrPowerCap _ => true
  | .mfrReadFlowMain => true
  | .mfrReadFlowOpt => true
  | .pmbusUnsupported code _ => !pmbusCodes.contains code.toNat
  | .setdasa _ => true
  | .tleArrCounterRead _ _ => true
  | .tleTurnWaitRead _ => true
  | .tleSeqCounterRead _ _ => true
  | .tleVecCounterRead _ _ => true
  | .tleStrmCounterRead _ _ => true
  | .tleRtfCounterRead _ _ => true
  | .tleThermCounterRead _ _ => true
  | .rtuCounterRead _ => true
  | .memCounterRead _ _ => true
  | .gplCounterRead _ _ => true
  | .updCounterRead _ _ => true
  | .optCounterRead _ _ => true
  | .fabCounterRead _ => true
  | .pwrCounterRead _ => true
  | .ethCounterRead _ _ => true
  | .registerWrite addr _ => addr.toNat % 4 == 0
  | .standbySupply _ => true
  | .unassignedOpcode _ _ => true
  | .failedAccess addr _ => tileAddr addr.toNat
  | .combWorking _ _ _ => true
  | .ringAcquired _ => true
  | .peerLight _ _ _ => true
  | .noLightTimeout _ _ => true
  | .mapReady => true
  | .linkChange _ _ => true
  | .pluggablePresence _ _ _ => true
  | .spdmConnection _ => true

end Sys2Proof
end

