-- ==== Sys2Proof/Machine/Mesh.lean ====
section
/-!
DEFINITION. The panel: routing and the routers, the prune map and its closing at a start, the field map in flash, and failed
accesses (R17 to R49).
-/
namespace Sys2Proof.Machine

/-! ### Places (R17, R20, R22) -/

def rowOf (p : TileId) : Nat := p.1 / 32
def colOf (p : TileId) : Nat := p.1 % 32
/-- The tile at a row and column. -/
def tileAt (r c : Nat) : Option TileId :=
  if h : r < 36 ∧ c < 32 then some ⟨32 * r + c, by omega⟩ else none

/-- An edge router (R22). -/
def isEdge (p : TileId) : Bool := rowOf p == 0 || rowOf p == 35 || colOf p == 0 || colOf p == 31

/-- The neighbour of a router; none off the panel. -/
def neighbour (p : TileId) : Dir → Option TileId
  | .east => tileAt (rowOf p) (colOf p + 1)
  | .west => if colOf p = 0 then none else tileAt (rowOf p) (colOf p - 1)
  | .north => if rowOf p = 0 then none else tileAt (rowOf p - 1) (colOf p)
  | .south => tileAt (rowOf p + 1) (colOf p)
  | .localPort => none

def oppositeDir : Dir → Dir
  | .east => .west
  | .west => .east
  | .north => .south
  | .south => .north
  | .localPort => .localPort

def dirCode : Dir → Fin 5
  | .east => 0
  | .west => 1
  | .north => 2
  | .south => 3
  | .localPort => 4

/-- What the edge link at a router's outward port joins: the table of R20. -/
def attachmentAt (p : TileId) (d : Dir) : Option Attachment :=
  let r := rowOf p
  let c := colOf p
  match d with
  | .west => if c = 0 ∧ 2 ≤ r then some (if r < 34 then .memory (Fin.ofNat 64 (r - 2)) else .host) else none
  | .east => if c = 31 ∧ 2 ≤ r ∧ r < 34 then some (.memory (Fin.ofNat 64 (r + 30))) else none
  | .north => if r = 0 then some (.fabric (Fin.ofNat 16 (c / 4))) else none
  | .south => if r = 35 then some (.fabric (Fin.ofNat 16 (8 + c / 4))) else none
  | .localPort => none

/-- The edge attachments: router and outward port (R20). -/
def attachments : List (TileId × Dir) :=
  (List.finRange 1152).flatMap fun p =>
    ([.west, .east, .north, .south].filter fun d => (attachmentAt p d).isSome).map fun d => (p, d)

/-! ### Routing (R37, R38) -/

def TileMap.has (m : TileMap) (p : TileId) : Bool := m.getLsbD p.1
def TileMap.add (m : TileMap) (p : TileId) : TileMap := m ||| BitVec.ofNat 1152 (2 ^ p.1)
def TileMap.del (m : TileMap) (p : TileId) : TileMap := m &&& ~~~ BitVec.ofNat 1152 (2 ^ p.1)
def TileMap.tiles (m : TileMap) : List TileId := (List.finRange 1152).filter fun p => TileMap.has m p

/-- A router is powered off: its tile is pruned and not on the edge (R22, R23). -/
def routerOff (prune : TileMap) (p : TileId) : Bool := TileMap.has prune p && !isEdge p

/-- A valid detour entry of a router (R38): the neighbour in that direction is powered off. -/
def detourValid (prune : TileMap) (p : TileId) (d : Dir) : Bool := match neighbour p d with
  | some n => routerOff prune n
  | none => false

/-- The side of a detour entry: true for row + 1 or column + 1. The spec gives no choice of side. (DESIGN CHOICE, log 17). -/
def detourSide (prune : TileMap) (p : TileId) (d : Dir) : Bool := Config.detourSide prune.toNat p.1 (dirCode d).1

/-- The tile a packet is routed to now: its own, or the first active tile of its span (R41); none for an empty span. -/
def target (prune : TileMap) : PacketDest → Option TileId
  | .unicast p => some p
  | .attachment p _ => some p
  | .row r lo hi => ((List.range (hi + 1 - lo)).filterMap fun i => tileAt r (lo + i)).find? fun p => !(TileMap.has prune p)
  | .column c lo hi => ((List.range (hi + 1 - lo)).filterMap fun i => tileAt (lo + i) c).find? fun p => !(TileMap.has prune p)

/-- The output a packet takes at router p, and the packet as it leaves: X first, then Y, with the detours of R38.
(DESIGN CHOICE, log 17). -/
def route (prune : TileMap) (p : TileId) (k : Packet) : Option (Dir × Packet) :=
  match target prune k.dest with
  | none => none
  | some t =>
    let blockedX (d : Dir) : Dir × Packet :=
      if detourValid prune p d then (if detourSide prune p d then .south else .north, { k with vc1 := true, yDetour := false })
      else (d, { k with yDetour := false })
    let blockedY (d : Dir) : Dir × Packet :=
      if detourValid prune p d then (if detourSide prune p d then .east else .west, { k with vc1 := true, yDetour := true })
      else (d, k)
    if k.yDetour ∧ rowOf p ≠ rowOf t then some (blockedY (if rowOf p < rowOf t then .south else .north))
    else if colOf p ≠ colOf t then some (blockedX (if colOf p < colOf t then .east else .west))
    else if rowOf p ≠ rowOf t then some (blockedY (if rowOf p < rowOf t then .south else .north))
    else match k.dest with
      | .attachment _ side => some (side, k)
      | _ => some (.localPort, k)

/-- The packets a router queues for a packet that reaches it: at the first tile of a span, the tile's own copy and the rest of
the span, as long as an active tile is left in it (R41). (DEDUCED, log 18). -/
def splitSpan (prune : TileMap) (p : TileId) (k : Packet) : List Packet :=
  if target prune k.dest = none then []
  else if target prune k.dest ≠ some p then [k]
  else
    let copies (rest : PacketDest) : List Packet :=
      { k with dest := .unicast p } :: (if (target prune rest).isSome then [{ k with dest := rest }] else [])
    match k.dest with
    | .row r _ hi => copies (.row r (colOf p + 1) hi)
    | .column c _ hi => copies (.column c (rowOf p + 1) hi)
    | _ => [k]

/-! ### Routability (R39) -/

/-- A channel of the mesh: a router's output and its virtual channel. -/
abbrev Channel : Type := TileId × Dir × Bool

/-- The channels of a unicast route, and whether it arrives. -/
def walk (prune : TileMap) : Nat → TileId → Packet → List Channel × Bool
  | 0, _, _ => ([], false)
  | n + 1, p, k => match route prune p k with
    | none => ([], false)
    | some (d, k) =>
      if d = .localPort then ([(p, d, k.vc1)], true)
      else match neighbour p d with
        | none => ([(p, d, k.vc1)], match k.dest with
            | .attachment t side => decide (t = p ∧ side = d)
            | _ => false)
        | some q =>
          if routerOff prune q then ([(p, d, k.vc1)], false)
          else
            let r := walk prune n q k
            ((p, d, k.vc1) :: r.1, r.2)

/-- Every route that must exist, as its channels and whether it arrives. -/
def allRoutes (prune : TileMap) : List (List Channel × Bool) :=
  let active := (List.finRange 1152).filter fun p => !(TileMap.has prune p)
  let pkt (src : TileId) (d : PacketDest) : Packet := ⟨src, d, 1, 0, false, false⟩
  active.flatMap fun p =>
    (active.filter (· != p)).map (fun q => walk prune 4096 p (pkt p (.unicast q))) ++
      attachments.flatMap fun a => [walk prune 4096 p (pkt p (.attachment a.1 a.2)), walk prune 4096 a.1 (pkt a.1 (.unicast p))]

/-- The dependences of consecutive channels. -/
def dependences (l : List (List Channel × Bool)) : List (Channel × Channel) :=
  l.flatMap fun r => r.1.zip (r.1.drop 1)

/-- What is left of a dependence graph after taking away, n times, the dependences of channels that nothing depends on. -/
def residue : Nat → List (Channel × Channel) → List (Channel × Channel)
  | 0, l => l
  | n + 1, l => residue n (l.filter fun e => l.any fun f => f.2 == e.1)

/-- The failing routes of a prune map: those that do not arrive; where all arrive, those with a dependence that lies on a cycle or
downstream of one. (DESIGN CHOICE, log 97). -/
def failingRoutes (prune : TileMap) : List (List Channel) :=
  let l := allRoutes prune
  let open' := l.filter fun r => !r.2
  if !open'.isEmpty then open'.map (·.1)
  else
    let left := residue 11520 (dependences l)
    (l.filter fun r => (r.1.zip (r.1.drop 1)).any left.contains).map (·.1)

/-- The active interior tile on the most of these routes, ties to the higher p. -/
def worstTile (prune : TileMap) (l : List (List Channel)) : Option TileId :=
  let count (p : TileId) : Nat := (l.filter fun r => r.any fun c => c.1 == p).length
  (((List.finRange 1152).filter fun p => !(TileMap.has prune p) && !isEdge p).foldl (fun (b : Option (TileId × Nat)) p =>
    match b with
    | none => some (p, count p)
    | some x => if x.2 ≤ count p then some (p, count p) else some x) none).map (·.1)

/-- Tiles are pruned until every check of R39 passes. -/
def closeRoutes : Nat → TileMap → TileMap
  | 0, m => m
  | n + 1, m => match failingRoutes m with
    | [] => m
    | l => match worstTile m l with
      | none => m
      | some p => closeRoutes n (TileMap.add m p)

/-! ### The field map in flash (R25 to R28) -/

def flashDefault : Byte := 0xFF

namespace State

/-- A byte of configuration flash. -/
def flashByte (s : State) (a : Nat) : Byte := (factoryByte a).getD (Sparse.get flashDefault s.nv.flash a)
def flashBytes (s : State) (a n : Nat) : List Byte := (List.range n).map fun i => s.flashByte (a + i)
def writeFlash (s : State) (a : Nat) (l : List Byte) : State :=
  { s with nv := { s.nv with flash := l.zipIdx.foldl (fun m x => Sparse.set flashDefault m (a + x.2) x.1) s.nv.flash } }
def modMesh (s : State) (f : Mesh → Mesh) : State := { s with mesh := f s.mesh }
/-- Tile p is in the prune map in force (R23). (DEDUCED, log 20). -/
def pruned (s : State) (p : TileId) : Bool := TileMap.has s.mesh.prune p

end State

/-- Where a field-map copy lies (R396). -/
def fieldCopyAt (copy1 : Bool) : Nat := if copy1 then 0x8201000 else 0x8200000

namespace FieldImg

def seq (m : Image) : W32 := BitVec.ofNat 32 (Image.field m 4 4)
def map (m : Image) : TileMap := BitVec.ofNat 1152 (leNat ((m.drop 0x20).take 144))
def nsusp (m : Image) : Nat := Image.field m 0x0A 1
def susp (m : Image) (i : Nat) : Nat := Image.field m (0x0C + 2 * i) 2
def suspects (m : Image) : List TileId := (List.range (nsusp m)).filterMap fun i =>
  if h : susp m i < 1152 then some ⟨susp m i, h⟩ else none

/-- A copy is valid (R26). -/
def valid (m : Image) : Bool :=
  Image.field m 0 4 == 0x504D4650 && Image.field m 0xB0 8 == (crc64 (m.take 0xB0)).toNat &&
    Image.field m 8 2 == (TileMap.tiles (map m)).length && decide (nsusp m ≤ 8) &&
    (List.range (nsusp m)).all fun i => decide (susp m i < 1152)

/-- The bytes of a copy (R25). -/
def build (sq : W32) (m : TileMap) (sp : List TileId) : List Byte :=
  let l := leBytes 0x504D4650 4 ++ leBytes sq.toNat 4 ++ leBytes (TileMap.tiles m).length 2 ++ leBytes sp.length 1 ++ [0#8] ++
    ((List.range 8).flatMap fun i => leBytes (match sp[i]? with
      | some p => p.1
      | none => 0xFFFF) 2) ++ List.replicate 4 0#8 ++ leBytes m.toNat 144
  l ++ leBytes (crc64 l).toNat 8

end FieldImg

/-- A tile taken out of BITMAP and listed as a suspect; it stays in BITMAP where the list of 8 is full. (DESIGN CHOICE, log 112). -/
def clearTile (x : TileMap × List TileId) (p : TileId) : TileMap × List TileId :=
  if x.2.contains p then (TileMap.del x.1 p, x.2)
  else if x.2.length < 8 then (TileMap.del x.1 p, x.2 ++ [p])
  else x

/-- A change applied to the field map (R35, R47, R405). -/
def FieldChange.apply (c : FieldChange) (m : TileMap) (sp : List TileId) : TileMap × List TileId :=
  match c with
  | .prune p => (TileMap.add m p, sp)
  | .suspect p =>
    if sp.contains p then (m, sp) else if sp.length < 8 then (m, sp ++ [p]) else (TileMap.add m p, sp)
  | .clearField l => l.foldl clearTile (m, sp)
  | .clearSuspect => (m, [])

namespace State

/-- The copy and SEQ of the next field-map write (R27, R28). -/
def nextCopy (s : State) : Bool × W32 :=
  if s.mesh.fieldMapLost ∧ s.mesh.fieldSeq = 0 then (false, 1) else (!s.mesh.fieldCopy, s.mesh.fieldSeq + 1)

/-- A field-map write has completed: flash and the registers follow. FIELD_MAP_LOST stays set until the next start.
(DESIGN CHOICE, log 112). -/
def storeField (s : State) (m : TileMap) (sp : List TileId) : State :=
  let (copy, sq) := s.nextCopy
  (s.writeFlash (fieldCopyAt copy) (FieldImg.build sq m sp)).modMesh fun x =>
    { x with field := m, suspects := sp, fieldSeq := sq, fieldCopy := copy }

/-! ### MESH_SVC_ERR (R42, R46 to R49) -/

/-- A service failure is recorded (R49). (DEDUCED, log 20). -/
def svcError (s : State) (tile : Nat) (cause : BitVec 3) : State :=
  s.modMesh fun x =>
    if x.svcValid then { x with svcCount := if x.svcCount = 255 then 255 else x.svcCount + 1 }
    else { x with svcValid := true, svcTile := BitVec.ofNat 11 tile, svcCause := cause, svcCount := 1 }

/-- Start the next waiting runtime SUSPECT write. (DESIGN CHOICE, log 21). -/
def nextFieldWrite (s : State) : State :=
  match s.mesh.write, s.mesh.writeQueue with
  | none, p :: l => s.modMesh fun x => { x with write := some (.suspect p), writeQueue := l }
  | _, _ => s

/-- A runtime tile fault (R35). -/
def suspectTile (s : State) (p : TileId) : State :=
  (s.modMesh fun x => { x with tileFault := true, writeQueue := x.writeQueue ++ [p] }).nextFieldWrite

/-- The tile that a failed field-map write names (R48); none is listed with CLEAR_SUSPECT. (DESIGN CHOICE, log 21). -/
def changeTile (s : State) (c : FieldChange) : Nat × State :=
  match c with
  | .prune p => (p.1, s)
  | .suspect p => (p.1, s)
  | .clearField (p :: _) => (p.1, s)
  | _ =>
    let f := s.takeFree
    (f.1.toNat % 2048, f.2)

/-- A maintenance command has completed (R405). -/
def endMaintenance (s : State) : State :=
  if s.sec.busy then { s with sec := { s.sec with busy := false, event := s.sec.event ||| 1 } } else s

end State

/-! ### Commands -/

/-- A write to MESH_PRUNE_REQ (R47). A TILE of 1,152 or more is cause 3, also while a write runs, and
any other TILE is cause 5 then, also one pruned already. (DESIGN CHOICE, log 98). -/
def execMeshPruneReq (v : W32) (s : State) : Host.Outcome State Fault Refusal :=
  s.whenPowered fun s =>
  let t := v.toNat % 2048
  if h : t < 1152 then
    let p : TileId := ⟨t, h⟩
    if s.mesh.write.isSome then .next (s.svcError t 5)
    else if TileMap.has s.mesh.prune p || TileMap.has s.mesh.field p then .next s
    else .next (s.modMesh fun x => { x with write := some (.prune p) })
  else .next (s.svcError t 3)

/-- The field-map write in progress ends (R27, R48): a failed one waits for its retry. (DESIGN CHOICE, log 21). -/
def execFieldMapWriteDone (ok : Bool) (s : State) : Host.Outcome State Fault Refusal :=
  match s.mesh.write with
  | none => .next s
  | some c =>
    let s := s.modMesh fun x => { x with write := none }
    if ok then
      let r := c.apply s.mesh.field s.mesh.suspects
      let s := s.storeField r.1 r.2
      .next ((match c with
        | .clearField _ => s.endMaintenance
        | .clearSuspect => s.endMaintenance
        | _ => s).nextFieldWrite)
    else .next ((s.modMesh fun x => { x with retry := x.retry ++ [c] }).nextFieldWrite)

/-- The retry of the write that failed first of those that wait, 100 ms after its failure (R48), done in one event in which
PRUNE_REQ_BUSY does not read 1. (DESIGN CHOICE, log 21). -/
def execFieldMapRetry (ok : Bool) (s : State) : Host.Outcome State Fault Refusal :=
  match s.mesh.retry with
  | [] => .next s
  | c :: l =>
    let s := s.modMesh fun x => { x with retry := l }
    let s := if ok then
        let r := c.apply s.mesh.field s.mesh.suspects
        s.storeField r.1 r.2
      else
        let (t, s) := s.changeTile c
        (s.modMesh fun x => { x with fieldWriteFail := true }).svcError t 6
    .next (match c with
      | .clearField _ => s.endMaintenance
      | .clearSuspect => s.endMaintenance
      | _ => s)

/-- A service-tree access that is not answered (R46): the read delivers zero. -/
def execServiceTreeTimeout (target : Option TileId) (isWrite : Bool) (s : State) : Host.Outcome State Fault Refusal :=
  s.whenPowered fun s =>
  let s := s.svcError (match target with
    | some p => p.1
    | none => 0x7FF) 2
  .next (if isWrite then s else { s with readValue := 0 })

/-- Writing 1 to VALID of MESH_SVC_ERR (R49). -/
def execMeshSvcErrClear (v : W32) (s : State) : Host.Outcome State Fault Refusal :=
  if v.getLsbD 31 then .next (s.modMesh fun x => { x with svcTile := 0, svcCause := 0, svcCount := 0, svcValid := false })
  else .next s

/-! ### Routers (R37 to R42) -/

namespace State

def router (s : State) (p : TileId) : Router := Sparse.get Router.reset s.mesh.routers p.1
def setRouter (s : State) (p : TileId) (r : Router) : State :=
  s.modMesh fun x => { x with routers := Sparse.set Router.reset x.routers p.1 r }

/-- A packet reaches an input of a router: it is buffered, a multicast at a tile of its span as its copies. -/
def packetIn (s : State) (p : TileId) (d : Dir) (k : Packet) : State :=
  let r := s.router p
  s.setRouter p { r with queue := r.queue ++ (splitSpan s.mesh.prune p k).map fun k => (d, k) }

end State

/-- The ten inputs of the round robin: port and virtual channel. -/
def inputIndex (d : Dir) (vc1 : Bool) : Nat := 2 * (dirCode d).1 + (if vc1 then 1 else 0)

/-- The head packet of input i, if it asks for this output: as it will leave. -/
def headFor (prune : TileMap) (p : TileId) (r : Router) (out : Dir) (i : Nat) : Option ((Dir × Packet) × Packet) :=
  match r.queue.find? fun x => inputIndex x.1 x.2.vc1 == i with
  | none => none
  | some x => match route prune p x.2 with
    | some (d, k) => if d = out then some (x, k) else none
    | none => none

/-- One output of a router serves one packet (R37): round robin over the inputs after the one last served; nothing moves while
the output is not ready. An arriving packet is buffered first; one for a pruned tile never enters (R42). (DEDUCED, log 18, 19). -/
def execMeshPacket (p : TileId) (arrival : Option (Dir × Packet)) (out : Dir) (ready : Bool) (s : State) :
    Host.Outcome State Fault Refusal :=
  s.whenPowered fun s =>
  let prune := s.mesh.prune
  if routerOff prune p then .next s
  else
    let s := match arrival with
      | none => s
      | some (d, k) => match k.dest with
        | .unicast t => if TileMap.has prune t then s.svcError t.1 1 else s.packetIn p d k
        | _ => s.packetIn p d k
    let r := s.router p
    let last := r.last[dirCode out]
    if !ready then .next s
    else match ((List.range 10).map fun i => (last + 1 + i) % 10).findSome? fun i =>
        (headFor prune p r out i).map fun x => (i, x) with
      | none => .next s
      | some (i, x, k) =>
        let s := s.setRouter p { queue := r.queue.erase x, last := r.last.set (dirCode out) i }
        match neighbour p out with
        | some q => .next (s.packetIn q (oppositeDir out) k)
        | none => .next (s.modMesh fun y => { y with delivered := y.delivered ++ [⟨p, attachmentAt p out, k⟩] })

/-! ### Closing the mesh (R26, R29 to R33) -/

/-- The DIMM of a socket meets R450: of the capacity C of the ordering code in GiB, rated at least at the speed grade's rate in
MT/s; an empty socket does not. -/
def Part.dimmFits (part : Part) : Option (Nat × Nat) → Bool
  | none => false
  | some (gib, rate) => gib == (match part.mem with
      | .c04T => 64
      | .c08T => 128
      | .c16T => 256) && decide ((match part.grade with
      | .a => 12800
      | .b => 8800) ≤ rate)

/-- The tile that a failed link prunes, none where both its endpoints are edge routers (R31). -/
def linkVictim (l : TileId × TileId) : Option TileId :=
  if isEdge l.1 && isEdge l.2 then none
  else if isEdge l.1 then some l.2
  else if isEdge l.2 then some l.1
  else some (if l.1 < l.2 then l.2 else l.1)

namespace State

/-- Steps 1 to 3 of a start (R26, R29, R30, R254): the field-map copy, the tests and the training as bring-up found them. Powered
tiles are tested, and of the links those between neighbours that are not pruned. (DESIGN CHOICE, log 97). -/
def meshStart (s : State) (b : BringUp) : State :=
  let c0 := s.flashBytes (fieldCopyAt false) 184
  let c1 := s.flashBytes (fieldCopyAt true) 184
  let pick : Option (Bool × Image) :=
    if FieldImg.valid c0 ∧ FieldImg.valid c1 then
      (if FieldImg.seq c0 < FieldImg.seq c1 then some (true, c1) else some (false, c0))
    else if FieldImg.valid c0 then some (false, c0)
    else if FieldImg.valid c1 then some (true, c1)
    else none
  let field := match pick with
    | some x => FieldImg.map x.2
    | none => 0
  let old := s.nv.fuse ||| field
  let tested (p : TileId) : Bool := !(TileMap.has old p)
  let routers := b.routerFail.filter tested
  let links := b.linkFail.filter fun l => adjacent l.1 l.2 && tested l.1 && tested l.2
  let failed := b.selfTestFail.filter tested ++ routers ++ links.filterMap linkVictim
  let edgeFail := routers.any isEdge || links.any fun l => (linkVictim l).isNone
  let s := s.modMesh fun x =>
    { x with field := field, fieldMapLost := pick.isNone,
             suspects := match pick with
               | some y => FieldImg.suspects y.2
               | none => []
             fieldSeq := match pick with
               | some y => FieldImg.seq y.2
               | none => 0
             fieldCopy := match pick with
               | some y => y.1
               | none => false
             prune := old, bist := failed.foldl TileMap.add 0, edgeFail := edgeFail, starting := some b }
  { s with ports := Vector.ofFn fun i =>
      let f := b.trainFail.contains i || b.dimms.any fun x => x.1 == i && !s.part.dimmFits x.2
      { s.ports[i] with trained := !f, trainFail := f } }

/-- Steps 4 to 7 of a start: the new prune map, the numbering, the field map, and OPEN (R18, R24, R29 to R33, R254), which a thermal
shutdown keeps at 0 (R431). The map written lists no suspect: every one has passed, failed, or was pruned already.
(DESIGN CHOICE, log 112). -/
def closeMesh (s : State) (writeOk : Bool) : State :=
  let m := s.mesh
  let tested := m.prune ||| m.bist
  let prune := closeRoutes 1152 tested
  let gone := (TileMap.tiles prune).length - (TileMap.tiles tested).length
  let l2p := (List.finRange 1152).filter fun p => !(TileMap.has prune p)
  let floor := decide (l2p.length < 960)
  let newField := m.field ||| (prune &&& ~~~ s.nv.fuse)
  let changed := newField != m.field || !m.suspects.isEmpty
  let trained := s.ports.toList.all (·.trained)
  let s := { s.modMesh fun x => { x with prune := prune, sacrificed := BitVec.ofNat 8 (min 255 gone), belowFloor := floor,
                                         starting := none } with
             l2p := l2p, meshOpen := !floor && !m.edgeFail && trained && !s.power.shutdown }
  if !changed then s
  else if writeOk then s.storeField newField []
  else s.modMesh fun x => { x with fieldWriteFail := true }

end State

end Sys2Proof.Machine
end

