-- ==== Sys2Proof/Machine/Launch.lean ====
section
/-!
DEFINITION. The launch: START and CANCEL, the launch checks, acceptance, completion and the return to IDLE, hardware faults, and
the host block's tally and revoke registers (R141 to R148, R169 to R174, R258, R325).
-/
namespace Sys2Proof.Machine

namespace State

/-! ### START and CANCEL (R143, R144, R171) -/

def modLaunch (s : State) (f : LaunchRegs → LaunchRegs) : State := { s with launch := f s.launch }

/-- START is taken: RUN reads 1 and the checks begin. -/
def takeStart (s : State) : State := s.modLaunch fun l => { l with run := true, st := 1 }

/-- CANCEL with RUN = 1: while checking, the launch ends before any tile starts; else it drains. (DEDUCED, log 40). -/
def takeCancel (s : State) : State :=
  let s := s.modLaunch fun l => { l with cancelSeen := true }
  if s.launch.st = 1 then
    (s.modLaunch fun l => { l with run := false, st := 0, endCode := 2, endIrq := true }).fabricEnd false
  else s.cancelLaunch

/-- A write of HST_LAUNCH_CTL. (DEDUCED, log 40). -/
def writeLaunchCtl (s : State) (start cancel : Bool) : State :=
  if s.launch.run then
    let s := if start then s.modLaunch fun l => { l with writeWhileRun := true } else s
    if cancel then s.takeCancel else s
  else if start then s.takeStart else s

end State

def execStart (cancel : Bool) (s : State) : Host.Outcome State Fault Refusal :=
  s.whenPowered fun s => .next (s.writeLaunchCtl true cancel)
def execCancel (start : Bool) (s : State) : Host.Outcome State Fault Refusal :=
  s.whenPowered fun s => .next (s.writeLaunchCtl start true)

/-! ### The launch parameter block (R141) -/

namespace Lpb

def jobtag (b : Image) : BitVec 16 := BitVec.ofNat 16 (Image.field b 4 2)
def nlists (b : Image) : Nat := Image.field b 6 2
def program (b : Image) : Nat := Image.field b 0x08 8
def formats (b : Image) : Nat := Image.field b 0x10 8
def curves (b : Image) : Nat := Image.field b 0x18 8
def layerFmt (b : Image) : Nat := Image.field b 0x20 8
def policy (b : Image) : Nat := Image.field b 0x28 8
def stats (b : Image) : Nat := Image.field b 0x30 8
def lists (b : Image) : Nat := Image.field b 0x38 8
def plan (b : Image) : Nat := Image.field b 0x40 8
def mprog (b : Image) : Nat := Image.field b 0x48 8
def route (b : Image) : Nat := Image.field b 0x50 8
def update (b : Image) : Nat := Image.field b 0x58 8
def step (b : Image) : Nat := Image.field b 0x60 8
def user (b : Image) : Nat := Image.field b 0x68 8
def userLen (b : Image) : Nat := Image.field b 0x70 4

/-- The content checks of code 0x03. -/
def valid (b : Image) : Bool :=
  Image.field b 0 4 == 0x3142504C && Image.field b 0x74 4 == 0 && Image.field b 0x78 8 == (crc64 (b.take 0x78)).toNat &&
    ((List.range 13).all fun i => decide (Image.field b (8 + 8 * i) 8 < 2 ^ 48)) &&
    (userLen b == 0 || user b != 0) && ((nlists b == 0) == (lists b == 0))

end Lpb

/-! ### Images at launch -/

/-- A format-table image as the table that the tiles hold (R58). -/
def formatTableOf (img : Image) : FormatTable :=
  ⟨BitVec.ofNat 16 (Image.field img 4 2), Vector.ofFn fun n => BitVec.ofNat 128 (Image.field img (0x10 + 16 * n.1) 16)⟩

/-- The checks of a format-table image (R61). -/
def formatTableValid (img : Image) : Bool :=
  Image.field img 0 4 == 0x31544D46 && Image.field img 6 10 == 0 &&
    Image.field img 0x110 8 == (crc64 (img.take 0x110)).toNat &&
    (List.finRange 16).all fun n =>
      !(formatTableOf img).defined.getLsbD n.1 || entryValid (formatTableOf img).entry[n]

/-- The work-list directory's entry n (R160). -/
def listEntryOf (dir : Image) (n : Nat) : ListEntry :=
  let f := Image.field dir (32 * n + 0x14) 1
  { items := Image.field dir (32 * n) 8, ctr := Image.field dir (32 * n + 8) 8, cap := Image.field dir (32 * n + 0x10) 4,
    pair := f.testBit 0, noRevoke := f.testBit 1, done := Image.field dir (32 * n + 0x18) 8 }

/-- The directory is valid (R162): the alignment that R160 asks of ITEMS and CTR is none of R162's conditions.
(DEDUCED, log 41). -/
def listsValid (s : State) (dir : Image) (n : Nat) : Bool :=
  let l := (List.range n).map (listEntryOf dir)
  (l.all fun e => s.inDdr e.items (64 * e.cap) && s.inDdr e.ctr 16 &&
    (e.done == 0 || (e.done % 8 == 0 && s.inDdr e.done 8)) && (!e.pair || e.cap % 2 == 0)) &&
  (l.map (·.ctr)).eraseDups.length == n &&
  (List.range n).all fun i => decide (Image.field dir (32 * i + 0x14) 1 < 4) && Image.field dir (32 * i + 0x15) 3 == 0

/-- The header of a program image, all but its CHECK (R142). -/
def programHeaderValid (h : Image) : Bool :=
  Image.field h 0 4 == 0x31475250 && Image.field h 4 2 == 1 && Image.field h 6 2 == 0 && Image.field h 8 4 % 64 == 0 &&
    decide (0x40 ≤ Image.field h 8 4) && Image.field h 0x0C 4 % 8 == 0 && decide (8 ≤ Image.field h 0x0C 4) &&
    decide (Image.field h 0x0C 4 ≤ 2 ^ 28) && Image.field h 0x10 40 == 0

namespace State

/-- First byte and length of the code region of the program at a. -/
def codeRegion (s : State) (a : Nat) : Nat × Nat := (a + s.rdNat (a + 8) 4, s.rdNat (a + 0x0C) 4)

def programValid (s : State) (a : Nat) : Bool :=
  let h := s.rdBytes a 64
  let c := s.codeRegion a
  let e := s.launch.entry.toNat
  a != 0 && a % 64 == 0 && s.inDdr a 64 && programHeaderValid h && s.inDdr c.1 c.2 &&
    Image.field h 0x38 8 == (crc64 (h.take 0x38 ++ s.rdBytes c.1 c.2)).toNat && e % 8 == 0 && decide (c.1 ≤ e) &&
    decide (e < c.1 + c.2)

/-- An image of a fixed length at an address that may be 0 for none. -/
def imageAt (s : State) (a n : Nat) : Option Image := if a = 0 then none else some (s.rdBytes a n)

/-! ### The plan check (R325) -/

/-- The first item of R325 that fails, with the record concerned. (DEDUCED, log 42). -/
def planRefusal (s : State) (dir : Nat) : Option (Nat × Nat) :=
  match s.selectPlan dir with
  | none => some (1, 0)
  | some (p, _) =>
    let n := Plan.nmemb p
    let ranks := List.range n
    if (recordOf p n ownFpr).isNone then some (2, 0)
    else
      let missing := ranks.filter fun i => !s.fprPresent (Plan.fpr p i)
      let auth (i : Nat) : Bool :=
        Plan.fpr p i == ownFpr || (s.pairsOf (Plan.fpr p i)).all fun x => (s.mapEntry x.1 x.2).auth
      if !Plan.close p ∧ !missing.isEmpty then some (3, missing.headD 0)
      else if n - missing.length < Plan.minrank p then some (3, missing.headD 0)
      else match if Plan.auth p then ranks.find? fun i => s.fprPresent (Plan.fpr p i) && !auth i else none with
        | some i => some (4, i)
        | none => if 1 < n ∧ s.light.combs.combNone then some (5, 0) else none

/-! ### The checks (R145) -/

end State

/-- One check: its code, the bytes it reads, and whether it passes. -/
structure LaunchCheck where
  code : Byte
  reads : List (Nat × Nat)
  ok : Bool

namespace State

/-- The tables that later checks use: the block, the formats, the micro-programs. -/
def paramBlock (s : State) : Image := s.rdBytes s.launch.param.toNat 128

def launchFormats (s : State) (b : Image) : FormatTable :=
  match s.imageAt (Lpb.formats b) 280 with
  | some img => formatTableOf img
  | none => .empty

def launchPolicy (s : State) (b : Image) : Option Image :=
  if Lpb.layerFmt b = 0 then none else s.imageAt (Lpb.policy b) 0x818

/-- The optional image at `a` of n bytes: absent, or in fitted DDR, aligned as the spec says, and valid. (DEDUCED, log 41). -/
def optImage (s : State) (a n align : Nat) (valid : Image → Bool) : Bool :=
  a == 0 || (a % align == 0 && s.inDdr a n && valid (s.rdBytes a n))

def layerCheck (s : State) (b : Image) : LaunchCheck :=
  let a := Lpb.layerFmt b
  let n := s.rdNat (a + 4) 2
  let ft := s.launchFormats b
  ⟨0x07, if a = 0 then [] else [(a, if n ≤ 4096 then 0x18 + 8 * n else 0x10)] ++
      (if Lpb.policy b = 0 then [] else [(Lpb.policy b, 0x818)]),
    a == 0 || (s.optImage (Lpb.policy b) 0x818 1 (policyImageValid ft) && s.layerTableValid ft (s.launchPolicy b) a &&
      (Lpb.stats b == 0 || (Lpb.stats b % 64 == 0 && s.inDdr (Lpb.stats b) (192 * n))))⟩

/-- The bytes that the plan check reads: the directory, and of a directory in order the copies it names at an aligned address.
(DEDUCED, log 41). (DEDUCED, log 42). -/
def planReads (s : State) (dir : Nat) : List (Nat × Nat) :=
  let copy (a : Nat) : List (Nat × Nat) := if a % 64 ≠ 0 then [] else [(a, Plan.length (s.rdNat (a + 8) 1))]
  let copy1 := s.rdNat (dir + 0x10) 8
  if dir % 64 ≠ 0 then []
  else if !s.planDirValid dir then [(dir, 64)]
  else (dir, 64) :: copy (s.rdNat (dir + 8) 8) ++ if copy1 = 0 then [] else copy copy1

/-- The bytes that the program check reads: the header, and of a header in order the code region. (DEDUCED, log 41). -/
def programReads (s : State) (a : Nat) : List (Nat × Nat) :=
  if a = 0 ∨ a % 64 ≠ 0 then []
  else (a, 64) :: if programHeaderValid (s.rdBytes a 64) then [s.codeRegion a] else []

def routeCheck' (s : State) (a : Nat) : LaunchCheck :=
  let r := s.routeAt a
  ⟨0x0B, if a = 0 then [] else (a, r.length) :: if Route.valid r then [(Route.stateAt r, routeLen (Route.nlayer r))] else [],
    a == 0 || (a % 64 == 0 && s.inDdr a 0x428 && s.inDdr a r.length && Route.valid r && s.routeStateValid r)⟩

def updateCheck (s : State) (b : Image) : LaunchCheck :=
  let a := Lpb.update b
  let u := s.updateAt a
  let ok := updImageValid (s.launchFormats b) s.part.ddrEnd (s.imageAt (Lpb.mprog b) 0x1418) u
  ⟨0x0C, if a = 0 then []
      else (a, u.length) :: if ok then (List.range (Upd.ngrp u)).map fun g => (Upd.lraddr u g, 4 * Upd.lrlen u g) else [],
    a == 0 || (a % 64 == 0 && s.inDdr a 0x48 && s.inDdr a u.length && ok && s.schedulesValid u)⟩

/-- Rests on a choice of the model (DEDUCED, log 75). -/
def stepCheck (s : State) (a : Nat) : LaunchCheck :=
  let c := s.rdBytes a 360
  ⟨0x0D, if a = 0 then [] else (a, 360) :: if StepCfg.ndl c ≤ 4096 then [(StepCfg.dlist c, 16 * StepCfg.ndl c)] else [],
    a == 0 || (a % 64 == 0 && s.inDdr a 360 && s.stepCfgValid c s.launch.doneTally)⟩

/-- The checks in ascending code order. A check after one that fails is never made, so it may rest on what that one checked.
(DEDUCED, log 41). -/
def launchChecks (s : State) : List LaunchCheck :=
  let l := s.launch
  let pa := l.param.toNat
  let b := s.paramBlock
  let opt (code : Byte) (a n : Nat) (valid : Image → Bool) : LaunchCheck :=
    ⟨code, if a = 0 then [] else [(a, n)], s.optImage a n 1 valid⟩
  [⟨0x01, [], s.meshOpen && !s.mesh.belowFloor && !s.mesh.edgeFail && !s.mesh.tileFault⟩,
    ⟨0x02, [], l.count != 0 && decide (l.first.toNat + l.count.toNat ≤ s.l2p.length)⟩,
    ⟨0x03, if pa % 64 = 0 then [(pa, 128)] else [], pa % 64 == 0 && s.inDdr pa 128 && Lpb.valid b⟩,
    ⟨0x04, s.programReads (Lpb.program b), s.programValid (Lpb.program b)⟩,
    opt 0x05 (Lpb.formats b) 280 formatTableValid,
    opt 0x06 (Lpb.curves b) 0x10418 curveSetValid,
    s.layerCheck b,
    ⟨0x08, if Lpb.nlists b ≤ 4096 ∧ Lpb.lists b % 64 = 0 then [(Lpb.lists b, 32 * Lpb.nlists b)] else [],
      Lpb.nlists b == 0 || (decide (Lpb.nlists b ≤ 4096) && Lpb.lists b % 64 == 0 &&
        s.inDdr (Lpb.lists b) (32 * Lpb.nlists b) &&
        listsValid s (s.rdBytes (Lpb.lists b) (32 * Lpb.nlists b)) (Lpb.nlists b))⟩,
    ⟨0x09, if Lpb.plan b = 0 then [] else s.planReads (Lpb.plan b),
      Lpb.plan b == 0 || (s.planRefusal (Lpb.plan b)).isNone⟩,
    opt 0x0A (Lpb.mprog b) 0x1418 mpImageValid,
    s.routeCheck' (Lpb.route b), s.updateCheck b, s.stepCheck (Lpb.step b),
    ⟨0x0E, [], l.doneCount != 0⟩]

/-- The poisoned lines among the bytes a check reads. -/
def checkPoison (s : State) (c : LaunchCheck) : List Nat :=
  s.poisoned.filter fun l => c.reads.any fun r => r.2 != 0 && decide (r.1 < 64 * l + 64 ∧ 64 * l < r.1 + r.2)

/-- The first failing check, and the state with the uncorrectable accesses it met recorded (R145, R258). (DEDUCED, log 40). -/
def runChecks (s : State) : List LaunchCheck → Option Byte × State
  | [] => (none, s)
  | c :: l =>
    let bad := s.checkPoison c
    let s := bad.foldl (fun s x => s.recordUe (64 * x)) s
    if c.ok && bad.isEmpty then runChecks s l else (some c.code, s)

/-- Refusal (R145). -/
def refuse (s : State) (code : Byte) : State :=
  let s := s.modLaunch fun l => { l with refuse := code, endCode := 5, endIrq := true, run := false, st := 0 }
  if code ≠ 0x09 then s
  else match s.planRefusal (Lpb.plan s.paramBlock) with
    | some (sub, r) => s.modFabric fun b =>
      { b with planErrSub := BitVec.ofNat 4 sub, planErrRecord := BitVec.ofNat 5 r, planErrValid := true }
    | none => s.modFabric fun b => { b with planErrSub := 1, planErrRecord := 0, planErrValid := true }

/-! ### Acceptance (R146) -/

/-- What the launch holds until its job ends. -/
def newJob (s : State) (b : Image) : Job :=
  let l := s.launch
  let dir := s.rdBytes (Lpb.lists b) (32 * Lpb.nlists b)
  let code := s.codeRegion (Lpb.program b)
  { first := l.first.toNat, count := l.count.toNat, param := l.param.toNat, seq := l.seq, jobtag := Lpb.jobtag b,
    user := BitVec.ofNat 64 (Lpb.user b), userLen := BitVec.ofNat 32 (Lpb.userLen b), codeLo := code.1,
    codeHi := code.1 + code.2, doneTally := l.doneTally, doneCount := l.doneCount,
    lists := (List.range (Lpb.nlists b)).map (listEntryOf dir), armed := [], formats := s.launchFormats b,
    curves := s.imageAt (Lpb.curves b) 0x10418, mprog := s.imageAt (Lpb.mprog b) 0x1418, layerFmt := Lpb.layerFmt b,
    nlayer := if Lpb.layerFmt b = 0 then 0 else s.rdNat (Lpb.layerFmt b + 4) 2, policy := s.launchPolicy b,
    stats := Lpb.stats b, update := if Lpb.update b = 0 then none else some (s.updateAt (Lpb.update b)),
    step := s.imageAt (Lpb.step b) 360, route := if Lpb.route b = 0 then none else some (s.routeAt (Lpb.route b)) }

/-- The image that measurement index 6 covers: header, then code region. -/
def programBytes (s : State) (a : Nat) : List Byte :=
  s.rdBytes a 64 ++ s.rdBytes (s.codeRegion a).1 (s.codeRegion a).2

/-- Step 1: the number of the launch and its measurements. (DEDUCED, log 45). -/
def measureLaunch (s : State) (b : Image) (plan : Option Image) : State :=
  let d6 := sha384 (s.programBytes (Lpb.program b))
  let d7 := match plan with
    | some p => sha384 p
    | none => List.replicate 48 0#8
  (((s.setMeasure 6 true d6).setMeasure 7 true d7).extendMeasure 8 true d6).extendMeasure 9 true d7

/-- The counter word of a list at acceptance (R161). -/
def armList (s : State) (e : ListEntry) : State := ((s.setListC e 0).setListL e e.cap).touchAtomic e.ctr

end State

/-- A tile of the set at acceptance (R146 step 4, R195). (DEDUCED, log 44). -/
def Tile.atLaunch (t : Tile) (entry : BitVec 48) (gkey : W64) : Tile :=
  { Tile.reset with
    state := .issuing, pc := entry.zeroExtend 64, therm := t.therm, genSel := t.genSel, rtf := ⟨0xFFF, 0, 0, none⟩,
    lanes := Vector.ofFn fun l => ⟨gkey, 0, BitVec.ofNat 32 l.1, 0, 0⟩ }

namespace State

/-- The counters of a port that launch clears: those marked RC (chapter 09, registers). -/
def clearPort (q : Port) : Port :=
  { q with ce := 0, ue := 0, mergeErr := 0, gplRows := 0, gplOor := 0, gplBags := 0, updUnits := 0, updCatchup := 0,
           updNonfin := 0, updRestored := 0, updStamperr := 0 }

/-- The registers outside the tiles that an accepted launch clears. (DEDUCED, log 44). -/
def clearForLaunch (s : State) : State :=
  { s with
    ports := s.ports.map clearPort
    rtu := { s.rtu with calls := [], stepSat := false, done := 0, choices := 0, nulls := 0, skips := 0, evcalls := 0 }
    fabric := { s.fabric with planErrSub := 0, planErrRecord := 0, planErrValid := false, discard := 0, noroute := 0,
                              resent := 0 }
    launch := { s.launch with st := 2, refuse := 0, endCode := 0, cancelSeen := false, faultTile := 0, faultCause := 0,
                              faultHardware := false, faultValid := false, pendingEnd := 0, completed := false,
                              seq := s.launch.seq + 1 } }

/-- Entries of the layer format table at first use (R135). -/
def layerFirst (s : State) (j : Job) : State :=
  if j.layerFmt = 0 then s
  else s.setLayerTable j.layerFmt ((List.range j.nlayer).map fun l => entryAtLaunch j.policy (s.layerEntry j.layerFmt l))

/-- The host tallies that acceptance sets to 0 (R146 step 3). -/
def clearHostTallies (s : State) (j : Job) : State :=
  let l := j.doneTally :: (match j.step with
    | some c => [StepCfg.arriveT c, StepCfg.releaseT c, StepCfg.vetoT c]
    | none => [])
  { s with hostTallies := l.foldl (fun v k => v.set k.toNat 0 (by omega)) s.hostTallies }

/-- The steps of a new launch (R359, R362, R391): a restore waits for the join. (DEDUCED, log 44, 45). -/
def stepsAtLaunch (s : State) (j : Job) : State :=
  match j.step with
  | none => { s with steps := { s.steps with t := 1, a := 0, k := 0, phase := .idle, nf := false, nfNext := false,
                                              digest := false, nfMask := 0, msgs := [], lateMerges := [], units := [], stash := [],
                                              invs := [], chosen := none } }
  | some c =>
    let r := StepCfg.restore c
    let s := { s with steps := { s.steps with t := BitVec.ofNat 32 (StepCfg.step0 c), a := 0, k := 0,
                                              phase := if r then .restoring else .stepping, nf := false, nfNext := false,
                                              digest := r, nfMask := 0, msgs := [], lateMerges := [], units := [], stash := [],
                                              invs := [], chosen := none } }
    let s := { s with steps := { s.steps with secSeq := 0 },
                      health := { s.health with asked := s.health.asked || (!s.health.run && !r && StepCfg.amberOn c) } }
    if !r ∧ StepCfg.amberOn c then s.setHealthState 2
    else if s.health.state = 3 then s.setHealthState 0 else s

/-- GKEY of the micro-program image, 0 without one (R195). -/
def gkeyOf (j : Job) : W64 := match j.mprog with
  | some m => BitVec.ofNat 64 (Image.field m 8 8)
  | none => 0

/-- An accepted launch: the order of R146. (DEDUCED, log 42). -/
def accept (s : State) : State :=
  let b := s.paramBlock
  let plan := if Lpb.plan b = 0 then none else s.selectPlan (Lpb.plan b)
  let s := s.clearForLaunch.measureLaunch b (plan.map (·.1))
  let j := s.newJob b
  let s := { s with job := some j }
  let s := j.lists.foldl armList s
  let s := s.layerFirst j
  let s := match j.route with
    | some r => s.routeFirst r
    | none => s
  let s := { s with job := some { j with armed := (List.range j.lists.length).map fun n => (n, s.mem) } }
  let s := s.clearHostTallies j
  let s := (s.setOf j).foldl (fun s p => s.modTile p fun t => t.atLaunch s.launch.entry (gkeyOf j)) s
  let s := s.stepsAtLaunch j
  let s := match plan with
    | some (p, copy1) => s.fabricAccept p copy1
    | none => s.restoreStart
  s.checkDone

end State

/-- The launch checks finish (R145). -/
def execLaunchChecks (s : State) : Host.Outcome State Fault Refusal :=
  if !s.launch.run ∨ s.launch.st ≠ 1 then .next s
  else match s.runChecks s.launchChecks with
    | (some code, s) => .next (s.refuse code)
    | (none, s) => .next s.accept

/-! ### The end of a launch (R147, R148, R171 to R173) -/

/-- A tile of the set has nothing left to do. (DEDUCED, log 36). (DEDUCED, log 43). -/
def Tile.atRest (t : Tile) : Bool :=
  match t.state with
  | .idle => t.signals.isEmpty
  | .halted => t.signals.isEmpty
  | .drained => t.signals.isEmpty
  | .faulted =>
    t.claims.isEmpty && t.statMerges.isEmpty && t.rslots.toList.all (·.isNone) &&
      (t.signals.all fun g => !g.sent && t.busyBefore g.issueNo) && t.waiting.all fun w => w.port && !t.portWork.isEmpty
  | _ => false

/-- A streamed reduction that lacks blocks which no tile gives any more, since every tile of the launch has stopped. -/
def Coll.starved (c : Coll) : Bool := c.kind == 0 && Rec.stream c.record && !((List.range (Rec.len c.record)).all c.accounted.contains)

namespace State

/-- A tile of the set is at rest. Of a tile that a program fault stopped, its routing calls, its collectives and the update units that
can run are done as well (R109); a streamed reduction that no tile feeds any more, units that the veto gate holds, and what waits for
these, end with the launch (DEDUCED, log 43). -/
def atRest (s : State) (p : TileId) : Bool :=
  (s.tile p).atRest && ((s.tile p).state != .faulted ||
    !((s.rtu.calls.any fun c => c.p == p) || (s.fabric.waiting.any fun w => w.p == p) ||
      (s.fabric.colls.any fun c => c.p == p && !c.starved) || s.steps.units.any fun x =>
        (x.owner.any fun o => o.1 == p) && (s.gateClear x || !x.checked)))

/-- What a faulted tile still holds ends with the launch. (DEDUCED, log 43). -/
def settleTile (s : State) (p : TileId) : State :=
  if (s.tile p).state = .faulted then
    (s.dropPortWork p).modTile p fun t =>
      { t with held := [], claims := [], waiting := [], collWait := [], enterRequested := false, enterAnswer := none, signals := [],
               portWork := [], wslots := Vector.replicate 8 .idle }
  else s

/-- Back to IDLE with an ending. (DEDUCED, log 43). -/
def endLaunch (s : State) (e : BitVec 3) : State :=
  let s := s.jobTiles.foldl settleTile s
  let s := if e = 1 then s else s.sendAbort e
  let s := { s.fabricEnd (e == 1) with
    job := none
    rtu := { s.rtu with calls := [] }
    steps := { s.steps with phase := .idle, units := [], stash := [], msgs := [], invs := [], chosen := none } }
  s.modLaunch fun l => { l with run := false, st := 0, endCode := e, endIrq := true, pendingEnd := 0, completed := false }

end State

/-- Every tile of the set has halted or drained (R147, R148, R351). A launch that ends by nothing else is DONE when its tally
has reached its count and every tile has executed HALT. (DEDUCED, log 43). -/
def execLaunchIdle (s : State) : Host.Outcome State Fault Refusal :=
  let l := s.launch
  if !s.launchActive ∨ s.jobTiles.any (fun p => !s.atRest p) then .next s
  else if l.st = 2 then
    if l.completed ∧ s.jobTiles.all (fun p => (s.tile p).state == .halted) then .next (s.endLaunch 1) else .next s
  else .next (s.endLaunch (if l.pendingEnd = 0 then 1 else l.pendingEnd))

/-! ### Hardware faults (R35, R173, R174) -/

/-- Causes 0x80 to 0x85 of a tile while a launch runs, with what R35 adds. (DEDUCED, log 23). -/
def State.tileFault (s : State) (p : TileId) (cause : Byte) : State :=
  if s.launchActive ∧ s.l2p.contains p then (s.tileHwFault p cause).suspectTile p else s

/-- Rests on a choice of the model (DEDUCED, log 23). -/
def execHardwareFault (p : Option TileId) (cause : Byte) (s : State) : Host.Outcome State Fault Refusal :=
  s.whenPowered fun s =>
  let c := cause.toNat
  match p with
  | some p =>
    if 0x80 ≤ c ∧ c ≤ 0x85 then .next (s.tileFault p cause)
    else if c = 0x86 then .next (if s.launchActive ∧ s.inSet p then s.tileHwFault p cause else s)
    else if 0x87 ≤ c ∧ c ≤ 0x8D then .next (s.moduleHwFault cause)
    else .next s
  | none => if c = 0x84 ∨ (0x86 ≤ c ∧ c ≤ 0x8D) then .next (s.moduleHwFault cause) else .next s

/-! ### Tallies and revoke from the host (R147, R158, R169) -/

def execHstTallyWrite (n : Fin 64) (v : BitVec 32) (s : State) : Host.Outcome State Fault Refusal :=
  s.whenPowered fun s =>
  .next (s.setHostTally (BitVec.ofNat 6 n.1) v)

/-- A write of TLE_SIGNAL: ignored while the tile is not in a running launch; a pruned tile is not reached (R46).
(DEDUCED, log 20). -/
def execTleSignalWrite (p : TileId) (v : BitVec 32) (s : State) : Host.Outcome State Fault Refusal :=
  s.whenPowered fun s =>
  if s.pruned p then .next (s.svcError p.1 1)
  else if s.launchActive && s.inSet p then .next (s.addTally p (v.truncate 6) (v >>> 8)) else .next s

/-- A write of HST_REVOKE_CTL. (DEDUCED, log 52). -/
def execHstRevokeGo (v : BitVec 32) (s : State) : Host.Outcome State Fault Refusal :=
  s.whenServed fun s =>
  if !v.getLsbD 31 then .next s
  else
    let err := s.modLaunch fun l => { l with revokeErr := true }
    match s.listEntry (v.truncate 12) with
    | none => .next err
    | some e =>
      if !s.launch.run || s.launch.revokeBusy || e.noRevoke then .next err
      else
        let r := s.revokeList e s.launch.revokeBound.toNat
        .next ((r.2.modLaunch fun l => { l with revokeResult := BitVec.ofNat 32 r.1, revokeDone := true }).readByModule
          ((List.range 8).map (e.ctr + ·)))

def execHstLaunchStatusClear (v : BitVec 32) (s : State) : Host.Outcome State Fault Refusal :=
  .next (s.modLaunch fun l =>
    { l with doneIrq := l.doneIrq && !v.getLsbD 19, endIrq := l.endIrq && !v.getLsbD 20,
             writeWhileRun := l.writeWhileRun && !v.getLsbD 21 })

def execHstRevokeStatusClear (v : BitVec 32) (s : State) : Host.Outcome State Fault Refusal :=
  .next (s.modLaunch fun l =>
    { l with revokeErr := l.revokeErr && !v.getLsbD 1, revokeDone := l.revokeDone && !v.getLsbD 2 })

end Sys2Proof.Machine
end

