-- ==== Sys2Proof/Machine/Ethernet.lean ====
section
/-!
DEFINITION. The Ethernet ports, their rings and DMA, and the cages (R409 to R413, R447, R448).
-/
namespace Sys2Proof.Machine

/-! ### Rings (R410) -/

namespace Ring

def enabled (r : Ring) : Bool := decide (6 ≤ r.size.toNat) && decide (r.size.toNat ≤ 16)
def len (r : Ring) : Nat := 2 ^ r.size.toNat
/-- The descriptors posted: from HEAD up to TAIL, modulo the ring size. -/
def posted (r : Ring) : Nat :=
  if r.enabled then (r.tail.toNat + r.len - r.head.toNat % r.len) % r.len else 0
/-- The descriptor at HEAD. -/
def desc (r : Ring) : Nat := r.base.toNat + 32 * (r.head.toNat % r.len)
def advance (r : Ring) : Ring := { r with head := BitVec.ofNat 16 ((r.head.toNat % r.len + 1) % r.len) }
def tgt (r : Ring) : Nat := r.sig.toNat % 4
def sigT (r : Ring) : BitVec 6 := r.sig.extractLsb' 2 6
def sigTile (r : Ring) : Nat := (r.sig.extractLsb' 8 11).toNat
/-- A base or memory-counter address outside fitted DDR, of an enabled ring (R413). -/
def outside (r : Ring) (ddrEnd : Nat) : Bool :=
  r.enabled && (decide (ddrEnd < r.base.toNat + 32 * r.len) || decide (ddrEnd < r.sigAddr.toNat + 8))

end Ring

/-- The transmit ring's index. -/
def txRing : Fin 9 := 8

/-- A ring that port p has: port 4 has receive ring 0 and the transmit ring only. -/
def hasRing (p : EthId) (r : Fin 9) : Bool := p != 4 || r == 0 || r == txRing

namespace State

def ethPort (s : State) (p : EthId) : EthPort := s.eth[p]
def modEth (s : State) (p : EthId) (f : EthPort → EthPort) : State := { s with eth := s.eth.set p (f s.eth[p]) }
def ring (s : State) (p : EthId) (r : Fin 9) : Ring := (s.ethPort p).rings[r]
def modRing (s : State) (p : EthId) (r : Fin 9) (f : Ring → Ring) : State :=
  s.modEth p fun x => { x with rings := x.rings.set r (f x.rings[r]) }

/-- Set bits of ETH_P_EVENT: 0 LINK_CHANGE, 1 RX_DONE, 2 TX_DONE, 3 WRITE_WHILE_RUN. -/
def ethEvent (s : State) (p : EthId) (bit : Nat) : State :=
  s.modEth p fun x => { x with event := x.event ||| BitVec.ofNat 4 (2 ^ bit) }

/-- Priority flow control of a receive ring (R411): XOFF below 16 posted descriptors, XON from 32. -/
def pfcUpdate (s : State) (p : EthId) (r : Fin 9) : State :=
  let x := s.ethPort p
  let q := s.ring p r
  if !x.run ∨ p = 4 ∨ r = txRing ∨ !x.pfcEn.getLsbD r.1 then s
  else if !q.xoff ∧ q.posted < 16 then
    (s.modRing p r fun y => { y with xoff := true }).modEth p fun y => { y with sent := y.sent ++ [.pfc r.1 true] }
  else if q.xoff ∧ 32 ≤ q.posted then
    (s.modRing p r fun y => { y with xoff := false }).modEth p fun y => { y with sent := y.sent ++ [.pfc r.1 false] }
  else s

/-- The signal of a ring (R412): every EVERY completed frames. -/
def ringSignal (s : State) (p : EthId) (r : Fin 9) : State :=
  let q := s.ring p r
  if q.every = 0 ∨ q.tgt = 0 ∨ q.tgt = 3 then s
  else if q.sinceSig + 1 < q.every.toNat then s.modRing p r fun y => { y with sinceSig := y.sinceSig + 1 }
  else
    let s := s.modRing p r fun y => { y with sinceSig := 0 }
    if q.tgt = 1 then
      (s.addMemCounter q.sigAddr.toNat 1).readByModule ((List.range 8).map (q.sigAddr.toNat + ·))
    else match s.l2p[q.sigTile]? with
      | some t =>
        if s.launchActive && s.inSet t then s.addTally t q.sigT 1
        else s.modEth p fun x => { x with sigLost := satAdd32 x.sigLost 1 }
      | none => s.modEth p fun x => { x with sigLost := satAdd32 x.sigLost 1 }

/-- Complete the descriptor at HEAD: the device's fields, then HEAD. -/
def completeDesc (s : State) (p : EthId) (r : Fin 9) (bytes flags : Nat) (counts : Bool) : State :=
  let q := s.ring p r
  (s.wrBytes (q.desc + 0x10) (leBytes bytes 4 ++ leBytes flags 4 ++ leBytes q.pos.toNat 8)).modRing p r fun y =>
    { y.advance with pos := if counts then y.pos + 1 else y.pos }

/-- The host's fields of the descriptor at HEAD: address, bytes, and the word that must be zero. -/
def hostDesc (s : State) (p : EthId) (r : Fin 9) : Nat × Nat × Nat :=
  let a := (s.ring p r).desc
  (s.rdNat a 8, s.rdNat (a + 8) 4, s.rdNat (a + 0x0C) 4)

end State

/-! ### Receiving (R411) -/

/-- The port's MAC address in wire order (R409): base + p. -/
def macOf (p : EthId) : List Byte := Sha.beBytes (Config.macBase.toNat + p.1) 6

/-- The frame is addressed to the port, to a group or to all. -/
def forPort (p : EthId) (frame : List Byte) : Bool :=
  frame.take 6 == macOf p || (frame.headD 0).getLsbD 0

/-- The receive ring and priority of a frame: its priority code point on ports 0 to 3, 0 without a tag. -/
def frameRing (p : EthId) (frame : List Byte) : Fin 9 :=
  let pcp : BitVec 3 := ((frame.drop 14).headD 0).extractLsb' 5 3
  if p != 4 && (frame.drop 12).take 2 == [0x81#8, 0x00#8] then ⟨pcp.toNat, by omega⟩ else 0

/-- A priority flow control frame (R409: IEEE 802.1Qbb): destination 01-80-C2-00-00-01, MAC control type 0x8808, opcode 0x0101.
(PRESUMED, log 108). -/
def isPfc (frame : List Byte) : Bool :=
  frame.take 6 == [0x01#8, 0x80#8, 0xC2#8, 0x00#8, 0x00#8, 0x01#8] &&
    (frame.drop 12).take 4 == [0x88#8, 0x08#8, 0x01#8, 0x01#8]

/-- The priorities paused after a PFC frame: each that its enable vector names takes the pause of its timer, of which zero is none.
(PRESUMED, log 108). -/
def pausedBy (old : BitVec 8) (frame : List Byte) : BitVec 8 :=
  let enable := (frame.drop 17).headD 0
  (List.range 8).foldl (fun m i =>
    let b : BitVec 8 := BitVec.ofNat 8 (2 ^ i)
    if enable.getLsbD i then (if (frame.drop (18 + 2 * i)).take 2 == [0#8, 0#8] then m &&& ~~~ b else m ||| b) else m) old

/-- The priority of a frame: its 802.1Q priority code point, 0 without a tag. -/
def framePriority (frame : List Byte) : Nat :=
  if (frame.drop 12).take 2 == [0x81#8, 0x00#8] then (((frame.drop 14).headD 0).extractLsb' 5 3).toNat else 0

/-- A frame (without its FCS) arrives, its FCS good or bad; the codewords that carried it are counted. On ports 0 to 3 a PFC frame
pauses priorities and goes to no ring. (DESIGN CHOICE, log 83). (PRESUMED, log 108). -/
def execEthRxFrame (p : EthId) (frame : List Byte) (fcsOk : Bool) (fecCorr fecUnc : Nat) (s : State) :
    Host.Outcome State Fault Refusal :=
  if !(s.ethPort p).run then .next s
  else
    let s := s.modEth p fun x => { x with fecCorr := satAdd32 x.fecCorr fecCorr, fecUnc := satAdd32 x.fecUnc fecUnc }
    if !fcsOk then .next (s.modEth p fun x => { x with rxFcs := satAdd32 x.rxFcs 1 })
    else if frame.length < 60 ∨ 9212 < frame.length ∨ !forPort p frame then .next s
    else if p ≠ 4 ∧ isPfc frame then .next (s.modEth p fun x => { x with paused := pausedBy x.paused frame })
    else
      let r := frameRing p frame
      let q := s.ring p r
      let nobuf (s : State) : State := s.modEth p fun x => { x with rxNobuf := satAdd32 x.rxNobuf 1 }
      if q.posted = 0 ∨ s.power.shutdown then .next (nobuf s)
      else
        let d := s.hostDesc p r
        let reads := (List.range 16).map (q.desc + ·)
        if d.1 % 64 ≠ 0 ∨ !s.inDdr d.1 d.2.1 ∨ d.2.1 < 9216 ∨ d.2.1 % 64 ≠ 0 ∨ d.2.2 ≠ 0 then
          .next (((((nobuf s).completeDesc p r 0 (1 + 2 * r.1 + 16) false).ethEvent p 1).pfcUpdate p r).readByModule reads)
        else
          let s := (s.wrBytes d.1 frame).completeDesc p r frame.length (1 + 2 * r.1) true
          let s := (s.modEth p fun x => { x with rxFrames := satAdd32 x.rxFrames 1 }).ethEvent p 1
          .next (((s.ringSignal p r).pfcUpdate p r).readByModule reads)

/-! ### Transmitting and settings (R410, R413) -/

/-- TAIL is written: descriptors are posted. -/
def execRingTailWrite (p : EthId) (ring : Fin 9) (v : BitVec 32) (s : State) : Host.Outcome State Fault Refusal :=
  s.whenPowered fun s =>
  if !hasRing p ring then .next s
  else .next ((s.modRing p ring fun y => { y with tail := v.truncate 16 }).pfcUpdate p ring)

/-- A frame of a paused priority is held back: the pause lasts as long as its timer says, which a free value decides here.
(PRESUMED, log 108). -/
def State.txHeld (s : State) (p : EthId) (priority : Nat) : Bool × State :=
  if p != 4 && (s.ethPort p).paused.getLsbD priority then (s.takeFree.1.getLsbD 0, s.takeFree.2) else (false, s)

/-- The descriptor at HEAD of the transmit ring is taken: sent, or completed BAD; a frame of a paused priority waits.
(DESIGN CHOICE, log 83; PRESUMED, log 108). -/
def execEthTxDescriptor (p : EthId) (s : State) : Host.Outcome State Fault Refusal :=
  let q := s.ring p txRing
  if !(s.ethPort p).run ∨ q.posted = 0 ∨ s.power.shutdown then .next s
  else
    let d := s.hostDesc p txRing
    let reads := (List.range 16).map (q.desc + ·)
    if !s.inDdr d.1 d.2.1 ∨ d.2.1 < 60 ∨ 9212 < d.2.1 ∨ d.2.2 ≠ 0 then
      .next (((s.completeDesc p txRing 0 3 false).ethEvent p 2).readByModule reads)
    else
      let frame := s.rdBytes d.1 d.2.1
      let held := s.txHeld p (framePriority frame)
      if held.1 then .next held.2
      else
        let s := held.2.modEth p fun x => { x with sent := x.sent ++ [.frame frame], txFrames := satAdd32 x.txFrames 1 }
        .next (((s.completeDesc p txRing 0 1 true).ethEvent p 2).readByModule
          (reads ++ (List.range d.2.1).map (d.1 + ·)))

/-- A write of ETH_P_CTL: RUN = 1 is ignored while a ring points outside fitted DDR. PFC_EN exists on ports 0 to 3, FEC on
port 4. (DESIGN CHOICE, log 83). -/
def execEthRun (p : EthId) (v : BitVec 32) (s : State) : Host.Outcome State Fault Refusal :=
  s.whenPowered fun s =>
  let x := s.ethPort p
  let bad := v.getLsbD 0 && !x.run && x.rings.toList.any fun r => r.outside s.part.ddrEnd
  let s := s.modEth p fun x =>
    { x with run := if bad then x.run else v.getLsbD 0, pfcEn := if p = 4 then 0 else v.extractLsb' 1 8,
             fec := if p ≠ 4 then 0 else if v.extractLsb' 9 2 = 3#2 then x.fec else v.extractLsb' 9 2,
             txDisable := if p = 4 ∧ v.getLsbD 0 ∧ !bad then false else x.txDisable }
  if bad then .next (s.ethEvent p 3)
  else .next ((List.range 8).foldl (fun s r => s.pfcUpdate p (Fin.ofNat 9 r)) s)

/-- RING_SIZE, with RUN = 0, resets HEAD, TAIL and POS. -/
def execRingSizeWrite (p : EthId) (ring : Fin 9) (v : BitVec 32) (s : State) : Host.Outcome State Fault Refusal :=
  s.whenPowered fun s =>
  if !hasRing p ring then .next s
  else if (s.ethPort p).run then .next (s.ethEvent p 3)
  else .next (s.modRing p ring fun y => { y with size := v.truncate 5, head := 0, tail := 0, pos := 0, sinceSig := 0 })

def execEthPEventClear (p : EthId) (v : BitVec 32) (s : State) : Host.Outcome State Fault Refusal :=
  .next (s.modEth p fun x => { x with event := x.event &&& ~~~ v.truncate 4 })

/-! ### Cages and links (R447, R448) -/

/-- A pluggable that declares this many tenths of a watt is left in low-power mode: above the 16.0 W of an OSFP cage (R448). -/
def overPower (p : EthId) (deciwatts : Nat) : Bool := p != 4 && decide (160 < deciwatts)

/-- The cage's supply has been good for 10 ms: firmware releases the OSFP reset, and low-power mode once the pluggable's power class
is within the limit. -/
def execCageResetRelease (p : EthId) (s : State) : Host.Outcome State Fault Refusal :=
  s.whenPowered fun s =>
  .next (if p = 4 then s else s.modEth p fun x =>
    { x with held := false, lowPower := !(x.present && !overPower p x.deciwatts) })

/-- LINK changes. A pluggable held in reset or in low-power mode never links. (DESIGN CHOICE, log 83). -/
def execLinkChange (p : EthId) (up : Bool) (s : State) : Host.Outcome State Fault Refusal :=
  s.whenPowered fun s =>
  let x := s.ethPort p
  let may := x.present && (p == 4 || (!x.held && !x.lowPower))
  if up == x.link ∨ (up ∧ !may) then .next s
  else .next ((s.modEth p fun y => { y with link := up }).ethEvent p 0)

/-- A pluggable is inserted or removed, in a powered cage or an unpowered one. One that declares more than 16.0 W is left in
low-power mode, and its port has no link (R447, R448). (DESIGN CHOICE, log 83). -/
def execPluggablePresence (p : EthId) (present : Bool) (powerDeciwatt : Nat) (s : State) :
    Host.Outcome State Fault Refusal :=
  let x := s.ethPort p
  let low := p != 4 && (x.held || !present || overPower p powerDeciwatt)
  let s1 := s.modEth p fun y =>
    { y with present := present, deciwatts := powerDeciwatt, lowPower := low, link := y.link && present && !low }
  .next (if x.link ∧ !(s1.ethPort p).link then s1.ethEvent p 0 else s1)

end Sys2Proof.Machine
end

