-- ==== Sys2Proof/Machine/Images.lean ====
section
/-!
DEFINITION. Firmware and configuration images in flash (R396 to R398).
-/
namespace Sys2Proof.Machine

namespace FlashImg

def svn (l : Image) : Nat := Image.field l 0x0C 4
def seq (l : Image) : Nat := Image.field l 8 4
def bodyLen (l : Image) : Nat := Image.field l 0x10 8
def entry (l : Image) : Nat := Image.field l 0x18 8
def body (l : Image) : Image := (l.drop 0x100).take (bodyLen l)

/-- The key that KEYIDX names, if it may sign. -/
def key (nv : NonVolatile) (firmware : Bool) (l : Image) : Option (List Byte) :=
  let k := Image.field l 6 1
  if k < 4 then (if nv.revoked.getLsbD k then none else some ((List.range 97).map (Config.vendorKey k)))
  else if k = 4 ∧ !firmware then nv.owner.map fun h => (List.range 97).map (Config.ownerKey h)
  else none

/-- A firmware or configuration image is valid (R397, R398). -/
def valid (nv : NonVolatile) (firmware : Bool) (l : Image) : Bool :=
  let n := bodyLen l
  let room := if firmware then 0x400_0000 else 0x10_0000
  Image.field l 0 4 == (if firmware then 0x3157464F else 0x3146434F) && Image.field l 4 2 == 1 && Image.field l 7 1 == 0 &&
    Image.field l 0x20 32 == 0 && Image.field l 0x70 16 == 0 && Image.field l 0xE0 32 == 0 &&
    (if firmware then decide (svn l < 64) && decide (nv.minSvn.toNat ≤ svn l) else svn l == 0) && n % 4096 == 0 &&
    decide (n ≤ room - 4096) && decide (0x100 + n ≤ l.length) &&
    (if firmware then entry l % 8 == 0 && decide (entry l < n) else entry l == 0) &&
    sha384 (body l) == (l.drop 0x40).take 48 &&
    (match key nv firmware l with
      | some k => ecdsaVerify k (l.take 0x80) ((l.drop 0x80).take 96)
      | none => false)

end FlashImg

/-- The slots: start and length (R396). -/
def flashSlot (firmware b : Bool) : Nat × Nat :=
  match firmware, b with
  | true, false => (0, 0x400_0000)
  | true, true => (0x400_0000, 0x400_0000)
  | false, false => (0x800_0000, 0x10_0000)
  | false, true => (0x810_0000, 0x10_0000)

namespace State

def slotImage (s : State) (firmware b : Bool) : Image :=
  let r := flashSlot firmware b
  s.flashBytes r.1 (min r.2 (0x100 + FlashImg.bodyLen (s.flashBytes r.1 0x100)))

/-- The image in use: the valid one of the larger SEQ, slot A on a tie; with it, whether the other slot holds an image of a
higher SEQ that is invalid. (DEDUCED, log 79). -/
def chooseImage (s : State) (firmware : Bool) : Option (Bool × Image × Bool) :=
  let a := s.slotImage firmware false
  let b := s.slotImage firmware true
  let va := FlashImg.valid s.nv firmware a
  let vb := FlashImg.valid s.nv firmware b
  let magic := if firmware then 0x3157464F else 0x3146434F
  let fallback (x y : Image) (vy : Bool) : Bool :=
    !vy && Image.field y 0 4 == magic && decide (FlashImg.seq x < FlashImg.seq y)
  if va ∧ (!vb ∨ FlashImg.seq b ≤ FlashImg.seq a) then some (false, a, fallback a b vb)
  else if vb then some (true, b, fallback b a va)
  else none

end State

end Sys2Proof.Machine
end

