-- ==== Sys2Proof/Machine/Power.lean ====
section
/-!
DEFINITION. Supply, reset and start, the limiter, tile temperature and clocks, the thermal shutdown, and the outputs of the
sideband connector (R13, R29, R399, R415 to R433, R435, R443, R444, R449).
-/
namespace Sys2Proof.Machine

namespace State

def modStandby (s : State) (f : Standby → Standby) : State := { s with standby := f s.standby }
def modPower (s : State) (f : Power → Power) : State := { s with power := f s.power }

/-! ### Module reset (R13, R420) -/

/-- The pairs after a module reset: reset, but for the lock seeds that configuration flash holds (R297). (DEDUCED, log 90). -/
def seedPairs (s : State) : List (Nat × Pair) :=
  s.nv.seeds.foldl (fun m x =>
    Sparse.set Pair.reset m x.1 { Pair.reset with tx := { LightRing.reset with seed := x.2.1 }, rx := { LightRing.reset with seed := x.2.2 } }) []

/-- A port after a module reset: the pluggable stays in its cage, unpowered (R447). -/
def unplugged (x : EthPort) : EthPort :=
  { EthPort.reset with present := x.present, deciwatts := x.deciwatts }

/-- Every register at its reset value, every memory lost. What survives is the part, its flash and fuses, the standby
controller, the pluggables in their cages, and the model's own queue and count of free values; the nonce is drawn anew.
(DESIGN CHOICE, log 91). -/
def cold (s : State) : State :=
  { State.reset with
    part := s.part, nv := s.nv, standby := s.standby, pending := s.pending, freeCtr := s.freeCtr + 1,
    sec := { Sec.reset with nonce := Config.freeValue s.freeCtr },
    light := { Light.reset with pairs := s.seedPairs }, eth := s.eth.map unplugged }

/-! ### Start (R29, R399) -/

/-- The body of the configuration image in use; none of the ROM's own tables (R399). -/
def tableBody (s : State) : List Byte := match s.chooseImage false with
  | some (_, l, _) => FlashImg.body l
  | none => []

/-- The health table of a configuration, its reserved bits zero (R12, R375): the monitor runs. -/
def loadHealth (s : State) : State :=
  let b := s.tableBody
  { s with health := { s.health with
      run := true, smA := Config.factoryHealth b 0 &&& 0x03FF_03FF, smB := Config.factoryHealth b 1 &&& 0xFF0F_03FF,
      smC := Config.factoryHealth b 2 &&& 0xFFFF, w := Vector.ofFn fun i => (Config.factoryHealth b (16 + i.1)).truncate 8,
      curve := Vector.ofFn fun i => Config.factoryHealth b (256 + i.1) &&& 0x03FF_FFFF } }

/-- A plane with its factory tuning table runs; with one that is not valid RUN stays 0 and TUNE_BAD is set (R295). -/
def startPlane (x : Plane) : Plane :=
  if x.tuneValid then { x with run := true } else { x with event := x.event ||| BitVec.ofNat 6 (2 ^ optTuneBad) }

/-- The tables that the start loads from configuration flash, or without a valid image from the ROM (R295, R375, R399). -/
def loadTables (s : State) : State :=
  let b := s.tableBody
  let s := s.loadHealth
  let tuned (q : PlaneId) (x : Plane) : Plane :=
    { x with tune := Vector.ofFn fun n => Config.factoryTune b q.1 n.1, tuneN := Config.factoryTuneN b q.1 }
  { s with light := { s.light with planes := Vector.ofFn fun q => startPlane (tuned q s.light.planes[q]) } }

/-- The trust thread up to measurement registers 1 and 4 (R399, R406). -/
def measureBoot (s : State) : State := s.measureRom.measureFuses

/-- The start begins: the start thread up to the self-tests and training, the trust thread up to registers 1 and 4. -/
def beginStart (s : State) (b : BringUp) : State := (s.meshStart b).loadTables.measureBoot

/-! ### Power states (R418, R419, R421) -/

/-- Power goes: lanes dark, islands gated, PG deasserted, every state lost. -/
def powerDown (s : State) : State := s.cold.modStandby fun x => { x with pg := false, sequencing := false }

/-- A fault of R418: the switch opens, and the fault is latched. -/
def supplyFault (s : State) : State := s.powerDown.modStandby fun x => { x with faultLatched := true }

/-- V_in is measured at the blades: by the standby controller, and in PWR_VIN while the module runs. -/
def seeVin (s : State) (vin : BitVec 16) : State :=
  let s := s.modStandby fun x => { x with vin := if x.supply then vin else x.vin }
  if s.powered then s.modPower fun x => { x with vin := vin } else s

/-- The rail sequence starts if PWR_EN and OPERATION ask for it and no fault is latched (R419, R434). (DEDUCED, log 84). -/
def startRails (s : State) : State :=
  let x := s.standby
  if x.supply && x.pwrEn && x.operation == 0x80 && !x.faultLatched && !x.pg then
    s.modStandby fun x => { x with sequencing := true }
  else s

end State

/-- PWR_EN is asserted, after `offMs` ms deasserted: a latched fault is released after 100 ms (R418, R419). With PWR_EN asserted
already, V_in has come into the operating range. (DEDUCED, log 84). -/
def execPwrEnAssert (vin : BitVec 16) (offMs : Nat) (s : State) : Host.Outcome State Fault Refusal :=
  let inRange : Bool := decide (4500 ≤ vin.toNat) && decide (vin.toNat ≤ 5500)
  let s := s.seeVin vin
  if s.standby.pwrEn then .next (if inRange then s.startRails else s)
  else
    let s := s.modStandby fun x => { x with pwrEn := true, faultLatched := x.faultLatched && decide (offMs < 100) }
    .next (if inRange then s.startRails else s)

/-- Every rail is in regulation: PG, the slot straps, and the start unless RESET_N holds the blocks (R419, R420, R444).
(DEDUCED, log 84). -/
def execPgAssert (b : BringUp) (s : State) : Host.Outcome State Fault Refusal :=
  if !s.standby.sequencing then .next s
  else
    let s := s.cold.modStandby fun x => { x with sequencing := false, pg := true, slotId := b.slotId }
    .next (if s.standby.inReset then s else s.beginStart b)

def execPwrEnDeassert (s : State) : Host.Outcome State Fault Refusal :=
  .next (s.powerDown.modStandby fun x => { x with pwrEn := false })

/-- RESET_N is asserted. (DESIGN CHOICE, log 91). -/
def execModuleReset (s : State) : Host.Outcome State Fault Refusal :=
  let s := s.modStandby fun x => { x with inReset := true }
  .next (if s.standby.pg then s.cold else s)

/-- RESET_N is deasserted: with PG, the start begins. -/
def execResetRelease (b : BringUp) (s : State) : Host.Outcome State Fault Refusal :=
  if !s.standby.inReset then .next s
  else
    let s := s.modStandby fun x => { x with inReset := false }
    .next (if s.standby.pg then s.cold.beginStart b else s)

def execRailOutOfRegulation (s : State) : Host.Outcome State Fault Refusal :=
  .next (if s.standby.pg then s.supplyFault else s)

/-- V_in falls below 36 V: the standby controller stops too, and a latched fault is released. (DEDUCED, log 84). -/
def execSupplyLoss (s : State) : Host.Outcome State Fault Refusal :=
  .next (s.powerDown.modStandby fun x =>
    { Standby.reset with supply := false, pwrEn := x.pwrEn, inReset := x.inReset, pg := false, vin := 0 })

/-- V_in first reaches 36 V (R415, R444). -/
def execStandbySupply (slotId : BitVec 6) (s : State) : Host.Outcome State Fault Refusal :=
  .next (if s.standby.supply then s else s.modStandby fun x => { x with supply := true, slotId := slotId, vin := 3600 })

/-! ### Supply warnings and faults (R417, R434) -/

/-- The value of a LINEAR11 word: a numerator and a denominator. -/
def linear11Value (w : BitVec 16) : Int × Nat :=
  let m : Int := (w.truncate 11).toInt
  let e : Int := (w.extractLsb' 11 5).toInt
  if 0 ≤ e then (m * 2 ^ e.toNat, 1) else (m, 2 ^ (-e).toNat)

/-- x / unit < the value of a LINEAR11 word. -/
def belowLimit (x unit : Nat) (w : BitVec 16) : Bool :=
  let v := linear11Value w
  decide ((x : Int) * v.2 < v.1 * unit)

/-- x / unit > the value of a LINEAR11 word. -/
def aboveLimit (x unit : Nat) (w : BitVec 16) : Bool :=
  let v := linear11Value w
  decide (v.1 * unit < (x : Int) * v.2)

namespace State

/-- A warning bit of STATUS_INPUT: its condition holds; a bit newly set is counted (R434, R372). (DEDUCED, log 86). -/
def inputWarning (s : State) (bit : Nat) (event : Nat) : State :=
  let m : Byte := BitVec.ofNat 8 (2 ^ bit)
  let new := !s.standby.statusInput.getLsbD bit
  let s := s.modStandby fun x => { x with statusInput := x.statusInput ||| m, liveInput := x.liveInput ||| m }
  if !s.powered then s
  else
    let s := s.modPower fun x => { x with event := x.event ||| BitVec.ofNat 10 (2 ^ event) }
    if !new then s
    else
      { s with power := { s.power with warnCount := satAdd32 s.power.warnCount 1, event := s.power.event ||| 0x200 },
               health := { s.health with warns := s.health.warns + 1 } }

/-- A latched fault of R417 with its bit of STATUS_INPUT; nothing below 36 V. -/
def inputFault (s : State) (bit : Nat) : State :=
  if s.standby.supply then
    s.supplyFault.modStandby fun x => { x with statusInput := x.statusInput ||| BitVec.ofNat 8 (2 ^ bit) }
  else s

end State

/-- V_in below the warning limit for 100 µs (STATUS_INPUT bit 5). -/
def execVinLow (vin : BitVec 16) (s : State) : Host.Outcome State Fault Refusal :=
  if s.standby.supply && belowLimit vin.toNat 100 s.standby.uvLimit then
    .next ((s.seeVin vin).inputWarning 5 0)
  else .next s

/-- V_in above the warning limit for 100 µs (bit 6). -/
def execVinHigh (vin : BitVec 16) (s : State) : Host.Outcome State Fault Refusal :=
  if s.standby.supply && aboveLimit vin.toNat 100 s.standby.ovLimit then
    .next ((s.seeVin vin).inputWarning 6 1)
  else .next s

/-- I_in above the warning limit for 100 µs (bit 1). -/
def execIinWarn (iin : BitVec 16) (s : State) : Host.Outcome State Fault Refusal :=
  if s.standby.supply && aboveLimit iin.toNat 10 s.standby.ocLimit then
    .next ((s.modPower fun x => { x with iin := iin }).inputWarning 1 2)
  else .next s

/-- V_in below 43.0 V for 100 µs, or below 40.0 V at once (bit 4). -/
def execUndervoltageFault (vin : BitVec 16) (s : State) : Host.Outcome State Fault Refusal :=
  .next (if vin.toNat < 4300 then (s.seeVin vin).inputFault 4 else s)

/-- V_in above 58.0 V for 10 µs (bit 7). -/
def execOvervoltageFault (vin : BitVec 16) (s : State) : Host.Outcome State Fault Refusal :=
  .next (if 5800 < vin.toNat then (s.seeVin vin).inputFault 7 else s)

/-- I_in above 330 A for 100 µs (bit 2). -/
def execOvercurrentFault (iin : BitVec 16) (s : State) : Host.Outcome State Fault Refusal :=
  .next (if 3300 < iin.toNat then s.inputFault 2 else s)

/-- I_in above 450 A (bit 2). -/
def execShortCircuitFault (iin : BitVec 16) (s : State) : Host.Outcome State Fault Refusal :=
  .next (if 4500 < iin.toNat then s.inputFault 2 else s)

/-! ### The limiter (R416, R425, R433) -/

/-- A reading in whole units. (DEDUCED, log 49). -/
def wholeReading (num den : Nat) : Nat := if num % den = 0 then num / den else Config.roundReading num den

/-- The minimum flow of the main loop, in 0.1 L/min (R432). -/
def minFlow (part : Part) : Nat := if part.pg25 then 220 else 180

/-- P_cool in W times 8 × the minimum flow (R433): the inlet in 0.125 °C, the flow in 0.1 L/min. (DEDUCED, log 88). -/
def coolLimit (part : Part) (inlet : Int) (flow : Nat) : Nat :=
  let f := minFlow part
  let base : Nat :=
    if inlet ≤ 256 then 120000 else if inlet ≤ 320 then (120000 - 375 * (inlet - 256)).toNat else 56000
  max (56000 * f) (base * min flow f)

/-- P_cap as a numerator over 8 × the minimum flow, with the limit that sets it (R416): on a tie the lowest code.
(DEDUCED, log 88). -/
def powerCap (part : Part) (vin cap : Nat) (inlet : Int) (flow : Nat) : Nat × Nat :=
  let d := 8 * minFlow part
  [3 * vin * d, cap * d, coolLimit part inlet flow].zipIdx.foldl
    (fun b x => if x.1 < b.1 then (x.1, x.2 + 1) else b) (15000 * d, 0)

/-- The level and its count after a sample (R425): P_in against the ceiling num/den. -/
def limiterLevel (l below pin num den : Nat) : Nat × Nat :=
  if num < pin * den then (max 1 (min (l - 1) (l * num / (pin * den))), 0)
  else if pin * den * (l + 1) ≤ num * l ∧ l < 16 then
    if 100 ≤ below + 1 then (l + 1, 0) else (l, below + 1)
  else (l, 0)

/-- A 10 µs interval ends. (DEDUCED, log 86, 88). -/
def execLimiterUpdate (m : PowerSample) (s : State) : Host.Outcome State Fault Refusal :=
  if !s.powered then .next s
  else
    let w := s.power
    let vin := m.vin.toNat
    let inlet := m.mainInlet.toInt
    let d := 8 * minFlow s.part
    let c := powerCap s.part vin w.cap.toNat inlet m.mainFlow.toNat
    let r := limiterLevel w.lMod.toNat w.below m.pin.toNat c.1 d
    let warn : Bool := decide (320 < inlet) || decide (240 < m.optInlet.toInt)
    let low : Bool := decide (m.mainFlow.toNat < minFlow s.part)
    let ev (b : Bool) (i : Nat) : BitVec 10 := if b then BitVec.ofNat 10 (2 ^ i) else 0
    let hot := s.l2p.any fun p => (s.tile p).therm.lTherm != 16
    let x := s.standby
    let live (b : Bool) (i : Nat) : Byte := if b then BitVec.ofNat 8 (2 ^ i) else 0
    .next { s with
      power := { w with
        vin := m.vin, iin := m.iin, pin := m.pin, mainInlet := m.mainInlet, mainFlow := m.mainFlow, optInlet := m.optInlet,
        optFlow := m.optFlow, blocks := m.blocks, lMod := BitVec.ofNat 5 r.1, below := r.2,
        vinState := if 5500 < vin then 3 else if vin < 4500 then 2 else if vin < 4920 then 1 else 0,
        coolState := if warn || low then 2 else if 256 < inlet then 1 else 0, coolWarn := warn, flowLow := low,
        capEff := BitVec.ofNat 14 (wholeReading c.1 d), limitBy := BitVec.ofNat 2 c.2,
        throttle := satAdd32 w.throttle (if hot then 1 else 0),
        event := w.event ||| ev (w.lMod == 16 && decide (r.1 < 16)) 3 ||| ev (warn && !w.coolWarn) 4 |||
          ev (low && !w.flowLow) 5 }
      standby := { x with
        vin := m.vin
        liveInput := x.liveInput &&& (live (belowLimit vin 100 x.uvLimit) 5 ||| live (aboveLimit vin 100 x.ovLimit) 6 |||
          live (aboveLimit m.iin.toNat 10 x.ocLimit) 1),
        statusMfr := x.statusMfr ||| live warn 0 ||| live low 1 } }

/-! ### Tile temperature and clocks (R426 to R429) -/

/-- L_therm of each row of R428's table. (DEDUCED, log 89). -/
def rowLevel (row : Nat) : Nat := match row with
  | 0 => 16
  | 1 => 13
  | 2 => 10
  | 3 => 7
  | _ => 4

/-- The row a temperature in 0.25 °C falls in. -/
def rowOfTj (tj : Int) : Nat :=
  if tj < 400 then 0 else if tj < 404 then 1 else if tj < 408 then 2 else if tj < 412 then 3 else 4

/-- A row's lower edge, in 0.25 °C. -/
def rowEdge (row : Nat) : Int := 396 + 4 * row

/-- A tile's registers after a sample: 100 samples are 1 ms, 20 samples 200 µs. (DEDUCED, log 89). -/
def Therm.sample (x : Therm) (tj : BitVec 16) : Therm :=
  let v := tj.toInt
  let rise := match x.history[19]? with
    | some old => v - old.toInt
    | none => 0
  let slope := if x.slope then decide (4 ≤ rise) else decide (380 ≤ v) && decide (8 ≤ rise)
  let under : Bool := decide (0 < x.row) && decide (v ≤ rowEdge x.row - 4)
  let r : Nat × Nat :=
    if x.row < rowOfTj v then (rowOfTj v, 0)
    else if !under then (x.row, 0)
    else if 100 ≤ x.below + 1 then (x.row - 1, 0)
    else (x.row, x.below + 1)
  let hot := if 420 ≤ v then x.hot + 1 else 0
  { x with tj := tj, row := r.1, below := r.2, slope := slope, hot := hot, trip := x.trip || hot == 3,
           lTherm := BitVec.ofNat 5 (if slope then min 12 (rowLevel r.1) else rowLevel r.1),
           history := (tj :: x.history).take 20 }

/-- A sample of a tile's junction sensor; three in a row at or above 105.0 °C are a thermal trip. In a tile that is hot already
when a launch starts, the next sample trips in that launch. (DEDUCED, log 89). -/
def execThermalSample (p : TileId) (tj : BitVec 16) (s : State) : Host.Outcome State Fault Refusal :=
  if !s.powered then .next s
  else
    let s := s.modTile p fun t => { t with therm := t.therm.sample tj }
    let t := s.tile p
    let trip := t.therm.hot == 3 ||
      (decide (3 < t.therm.hot) && s.launchActive && s.inSet p && t.state != .faulted && t.state != .drained)
    if trip then
      let s := s.modPower fun x => { x with trip := true, event := x.event ||| 0x40 }
      let s := s.modStandby fun x => { x with statusMfr := x.statusMfr ||| 8 }
      .next (s.tileFault p 0x84)
    else .next s

/-- The supply of an island droops by 3 % or more: one stretch event. -/
def execStretchEvent (p : TileId) (droopPermille : Nat) (s : State) : Host.Outcome State Fault Refusal :=
  if !s.powered ∨ droopPermille < 30 then .next s
  else
    let s := s.modTile p fun t => { t with therm := { t.therm with stretch := satAdd32 t.therm.stretch 1 } }
    .next { s with power := { s.power with stretch := satAdd32 s.power.stretch 1 },
                   health := { s.health with stretches := s.health.stretches + 1 } }

def execClockFault (p : TileId) (s : State) : Host.Outcome State Fault Refusal :=
  s.whenPowered fun s => .next (s.tileFault p 0x85)

/-- Work that tiles and memory had begun, as the islands are gated and the DIMMs refresh themselves (R431). (DEDUCED, log 90). -/
def State.stopWork (s : State) : State :=
  let s := s.jobTiles.foldl (fun s p => (s.discardWork p).modTile p fun t =>
    { t with signals := t.signals.filter fun x => !x.target.isMemory }) s
  { s with rtu := { s.rtu with calls := [] }, steps := { s.steps with units := [], stash := [] } }

/-- The module thermal shutdown (R431); `optical` says that its cause is optical. While it lasts, the DIMMs are in self-refresh
and serve nothing. (DEDUCED, log 90). -/
def execModuleThermalShutdown (optical : Bool) (s : State) : Host.Outcome State Fault Refusal :=
  if !s.powered then .next s
  else
    let s := s.moduleHwFault 0x84
    let s := if s.launchActive then s.stopWork else s
    let s := if optical then s.darkenAll else s
    let s := (s.modPower fun x =>
      { x with shutdown := true, optShutdown := x.optShutdown || optical, event := x.event ||| 0x80 }).modStandby fun x =>
      { x with statusMfr := x.statusMfr ||| 4 }
    .next { s with meshOpen := false }

def execDimmSensorRead (i : PortId) (temp : BitVec 16) (s : State) : Host.Outcome State Fault Refusal :=
  .next (if s.powered then s.modPower fun x => { x with dimmT := x.dimmT.set i temp } else s)

/-! ### PWR registers with rows of their own -/

def execPwrEventClear (v : BitVec 32) (s : State) : Host.Outcome State Fault Refusal :=
  .next (s.modPower fun x => { x with event := x.event &&& ~~~ v.truncate 10 })

namespace State

/-- CAP_SET takes a value in W, or the write is out of range. -/
def setCap (s : State) (w : Nat) : Option State :=
  if 7000 ≤ w ∧ w ≤ 15000 then some (s.modPower fun x => { x with cap := BitVec.ofNat 14 w }) else none

end State

def execPwrCapWrite (v : BitVec 32) (s : State) : Host.Outcome State Fault Refusal :=
  s.whenPowered fun s =>
  match s.setCap (v.toNat % 2 ^ 14) with
  | some s => .next s
  | none => .next (s.modPower fun x => { x with event := x.event ||| 0x100 })

/-! ### The close of the start (R29) -/

/-- Self-test and training are done: the mesh closes its maps and opens; index 5 is measured when OPEN becomes 1 (R406). -/
def execMeshOpen (writeOk : Bool) (s : State) : Host.Outcome State Fault Refusal :=
  if !s.powered ∨ s.mesh.starting.isNone then .next s
  else
    let s := s.closeMesh writeOk
    .next (if s.meshOpen then s.setMeasure 5 false (sha384 (leBytes s.mesh.prune.toNat 144)) else s)

/-! ### Outputs of the sideband connector (R433, R434, R443) -/

namespace State

/-- L_eff of a tile (R424). -/
def lEff (s : State) (p : TileId) : Nat := min s.power.lMod.toNat (s.tile p).therm.lTherm.toNat

/-- PRESENT_N, tied low in the module, is low while it is mated, as every state of the model is (R440, R443). -/
def presentLow (_s : State) : Bool := true
def pgOut (s : State) : Bool := s.standby.pg
/-- FAULT_N is driven low while a fault is latched. -/
def faultLow (s : State) : Bool := s.standby.supply && s.standby.faultLatched
/-- THERM_N is driven low. In standby the coolant sensors are not read. -/
def thermLow (s : State) : Bool := s.standby.pg && (s.power.coolState != 0 || s.power.shutdown)

/-- The bits of a status command that SMBALERT_MASK does not mask. -/
def unmasked (s : State) (code : Byte) (bits : Byte) : Byte :=
  match s.standby.masks.find? fun x => x.1 == code with
  | some x => bits &&& ~~~ x.2
  | none => bits

/-- ALERT_N is driven low while any unmasked status bit is set (R434): of STATUS_INPUT, STATUS_TEMPERATURE and
STATUS_MFR_SPECIFIC, and OFF, CML and POWER_GOOD# of STATUS_BYTE and STATUS_WORD, whose other bits sum those up.
(PRESUMED, log 85). -/
def alertLow (s : State) : Bool :=
  let x := s.standby
  x.supply &&
    (s.unmasked 0x7C x.statusInput != 0 || s.unmasked 0x7D x.statusTemp != 0 || s.unmasked 0x80 x.statusMfr != 0 ||
      s.unmasked 0x78 ((if x.pg then 0 else 0x40) ||| (if x.cml then 2 else 0)) != 0 ||
      s.unmasked 0x79 (if x.pg then 0 else 8) != 0)

/-- SCL and SDA are driven only during transfers, none of which lasts from one command to the next (R443). -/
def busDriven (_s : State) : Bool := false

/-- The Ethernet transmitters are in electrical idle in every condition but running (R443). -/
def ethIdle (s : State) : Bool := !s.powered

/-- The cages are powered only while PG is asserted and RESET_N deasserted (R447). -/
def cagePowered (s : State) : Bool := s.powered

end State

end Sys2Proof.Machine
end

