-- ==== Sys2Proof/Machine/HostComplex.lean ====
section
/-!
DEFINITION. Boot, flash writes, the security block and its commands, and the two address records of the host block's neighbours
(R396 to R407).
-/
namespace Sys2Proof.Machine

/-! ### Boot (R399, R400) -/

/-- The host SRAM (R453). -/
def hostSram : Nat := 0x7FF0_8000_0000

/-- The trust thread ends: the images are chosen, measured into registers 3 and 2, and the firmware runs at ENTRY; without valid
firmware the recovery service runs. (DESIGN CHOICE, log 80). -/
def execFirmwareEntry (s : State) : Host.Outcome State Fault Refusal :=
  if !s.powered ∨ s.boot.running ∨ s.boot.bootFail then .next s
  else
    let s := match s.chooseImage false with
      | some (b, l, fb) =>
        { s with boot := { s.boot with cfgSlot := b, cfgFallback := fb, cfgNone := false,
                                       cfgSeq := BitVec.ofNat 32 (FlashImg.seq l) } }.setMeasure 3 false
          (sha384 (l.take 0x100 ++ FlashImg.body l))
      | none =>
        { s with boot := { s.boot with cfgSlot := false, cfgFallback := false, cfgNone := true, cfgSeq := 0 } }.setMeasure 3
          false (List.replicate 48 0#8)
    match s.chooseImage true with
    | none => .next { s with boot := { s.boot with bootFail := true } }
    | some (b, l, fb) =>
      let s := s.setMeasure 2 false (sha384 (l.take 0x100 ++ FlashImg.body l))
      let s := { s with boot := { s.boot with
        running := true, entry := some (hostSram + Config.firmwarePlace % 0x400_0000 + FlashImg.entry l),
        a2 := s.standby.slotId.zeroExtend 64, fwSlot := b, fwFallback := fb,
        fwSeq := BitVec.ofNat 32 (FlashImg.seq l), fwSvn := BitVec.ofNat 6 (FlashImg.svn l) } }
      .next (s.wrBytes (hostSram + Config.firmwarePlace % 0x400_0000) (FlashImg.body l))

/-- The host complex starts again (R393, R400): its harts, its blocks and the interrupt controllers are reset, and its boot ROM
runs up to measurement registers 1 and 4 with the tables loaded anew. Measurements and their log stay, since no module reset was
made (R406). (DEDUCED, log 90). -/
def State.restartHost (s : State) : State :=
  let f := s.takeFree
  (State.loadHealth { f.2 with
    boot := .reset, launch := .reset, hostTallies := Vector.replicate 64 0, health := .reset, rtu := .reset, spdm := .reset,
    irq := .reset, eth := s.eth.map State.unplugged,
    sec := { Sec.reset with nonce := f.1, log := s.sec.log, logFull := s.sec.logFull, meas := s.sec.meas } }).measureBoot

/-- The recovery service takes "oxv-fw.img" (R400): a valid image goes to slot A, and the host complex starts again.
(DEDUCED, log 79, 90). -/
def execRecoveryWrite (image : List Byte) (s : State) : Host.Outcome State Fault Refusal :=
  if !s.boot.bootFail ∨ 0x400_0000 < image.length ∨ !FlashImg.valid s.nv true image then .next s
  else .next (s.writeFlash 0 image).restartHost

/-! ### Flash operations (R396, R414) -/

namespace State

/-- The writable slot that a range lies in, as (firmware, slot B); none where it leaves one. -/
def rangeSlot (off len : Nat) : Option (Bool × Bool) :=
  [(true, false), (true, true), (false, false), (false, true)].find? fun x =>
    decide ((flashSlot x.1 x.2).1 ≤ off ∧ off + len ≤ (flashSlot x.1 x.2).1 + (flashSlot x.1 x.2).2)

/-- A slot is in use. -/
def slotInUse (s : State) (x : Bool × Bool) : Bool :=
  if x.1 then s.boot.running && s.boot.fwSlot == x.2
  else (s.boot.running || s.boot.bootFail) && !s.boot.cfgNone && s.boot.cfgSlot == x.2

/-- GO or ERASE_ONLY is refused. (DEDUCED, log 79). -/
def flashRefused (s : State) (src : Bool) : Bool :=
  let b := s.boot
  b.flashBusy || b.flashOff.toNat % 65536 != 0 || b.flashLen.toNat % 65536 != 0 ||
    (match rangeSlot b.flashOff.toNat b.flashLen.toNat with
      | some x => s.slotInUse x
      | none => true) ||
    (src && !s.inDdr b.flashSrc.toNat b.flashLen.toNat)

/-- A flash operation begins. Until it ends, the bytes of its range are unpredictable. (DEDUCED, log 79). -/
def flashStart (s : State) (data : Option (List Byte)) : State :=
  let off := s.boot.flashOff.toNat
  let len := s.boot.flashLen.toNat
  let k := s.freeCtr
  let s := { s with freeCtr := k + 1, boot := { s.boot with flashBusy := true, flashOp := some (off, len, data) } }
  s.writeFlash off ((List.range len).map (Config.freeByte k))

end State

/-- GO in HST_FLASH_CTL. -/
def execFlashGo (s : State) : Host.Outcome State Fault Refusal :=
  s.whenServed fun s =>
  if s.flashRefused true then .next { s with boot := { s.boot with flashErr := true } }
  else
    let a := s.boot.flashSrc.toNat
    let n := s.boot.flashLen.toNat
    .next ((s.flashStart (some (s.rdBytes a n))).readByModule ((List.range n).map (a + ·)))

/-- ERASE_ONLY in HST_FLASH_CTL: the source does not matter. -/
def execEraseOnly (s : State) : Host.Outcome State Fault Refusal :=
  s.whenPowered fun s =>
  if s.flashRefused false then .next { s with boot := { s.boot with flashErr := true } } else .next (s.flashStart none)

/-- The flash operation completes. (DEDUCED, log 79). -/
def execFlashDone (s : State) : Host.Outcome State Fault Refusal :=
  match s.boot.flashOp with
  | none => .next s
  | some (off, len, data) =>
    let s := s.writeFlash off (data.getD (List.replicate len flashDefault))
    .next { s with boot := { s.boot with flashBusy := false, flashDone := true, flashOp := none } }

def execHstFlashStatusClear (v : BitVec 32) (s : State) : Host.Outcome State Fault Refusal :=
  .next { s with boot := { s.boot with flashDone := s.boot.flashDone && !v.getLsbD 1,
                                       flashErr := s.boot.flashErr && !v.getLsbD 2 } }

/-! ### The security block (R401, R404, R405, R407) -/

namespace State

def modSec (s : State) (f : Sec → Sec) : State := { s with sec := f s.sec }

/-- A request completed, or was refused. -/
def secDone (s : State) : State := s.modSec fun x => { x with event := x.event ||| 1 }
def secRefuse (s : State) (reason : BitVec 4) : State := s.modSec fun x => { x with reason := reason, event := x.event ||| 2 }

/-- SEC_NONCE is renewed. -/
def renewNonce (s : State) : State :=
  let f := s.takeFree
  f.2.modSec fun x => { x with nonce := f.1 }

end State

/-- Fields of a maintenance command (R405). -/
def cmdTiles (m : Image) : List Nat := (List.range (Image.field m 6 2)).map fun i => Image.field m (0x18 + 2 * i) 2

/-- The content checks of reason 1. -/
def cmdFormOk (m : Image) : Bool :=
  let op := Image.field m 4 2
  let n := Image.field m 6 2
  let l := cmdTiles m
  Image.field m 0 4 == 0x31434D4F && ((op == 1 && decide (1 ≤ n) && decide (n ≤ 8)) || (op == 2 && n == 0)) &&
    (l.all fun p => decide (p < 1152)) && l.eraseDups.length == n && Image.field m (0x18 + 2 * n) (16 - 2 * n) == 0 &&
    Image.field m 0x28 48 == 0 && Image.field m 0xB9 7 == 0

def toTiles (l : List Nat) : List TileId := l.filterMap fun p => if h : p < 1152 then some ⟨p, h⟩ else none

namespace State

/-- The first reason for which a maintenance command fails, or none. -/
def cmdReason (s : State) (m : Image) : Option (BitVec 4) :=
  let key := (m.drop 0x58).take 97
  let l := toTiles (cmdTiles m)
  if !cmdFormOk m then some 1
  else if s.nv.owner ≠ some (sha384 key) then some 2
  else if Image.field m 8 8 ≠ s.sec.nonce.toNat ∨ (m.drop 0x10).take 8 ≠ ownFpr.take 8 then some 3
  else if !ecdsaVerify key (m.take 0xC0) (m.drop 0xC0) then some 4
  else if l.any (fun p => TileMap.has s.nv.fuse p || !TileMap.has s.mesh.field p) ∨ 8 < s.mesh.suspects.length + l.length then
    some 6
  else if s.mesh.write.isSome then some 7
  else none

/-- GO: the maintenance command at SEC_ADDR. One outside fitted DDR or not 64-aligned fails like one of a wrong form.
(DEDUCED, log 81). -/
def secCommand (s : State) : State :=
  let a := s.sec.addr.toNat
  if s.power.shutdown then s
  else if a % 64 ≠ 0 ∨ !s.inDdr a 288 then (s.secRefuse 1).renewNonce
  else
    let m := s.rdBytes a 288
    let s := s.readByModule ((List.range 288).map (a + ·))
    match s.cmdReason m with
    | some r => (s.secRefuse r).renewNonce
    | none =>
      let c : FieldChange := if Image.field m 4 2 = 1 then .clearField (toTiles (cmdTiles m)) else .clearSuspect
      ((s.modMesh fun x => { x with write := some c }).modSec fun x => { x with busy := true }).renewNonce

/-- The 48 bytes at SEC_ADDR, and the state that has read them. -/
def secBytes (s : State) : Option (List Byte × State) :=
  let a := s.sec.addr.toNat
  if s.inDdr a 48 then some (s.rdBytes a 48, s.readByModule ((List.range 48).map (a + ·))) else none

/-- ENROL: once. -/
def secEnrol (s : State) : State :=
  if s.nv.owner.isSome then s.secRefuse 5
  else if s.power.shutdown then s
  else match s.secBytes with
    | none => s.secRefuse 1
    | some (h, s) => ({ s with nv := { s.nv with owner := some h } }.measureFuses).secDone

/-- MEASURE. -/
def secMeasure (s : State) : State := if s.power.shutdown then s else match s.secBytes with
  | none => s.secRefuse 1
  | some (d, s) => (s.extendMeasure 10 false d).secDone

/-- SVN_COMMIT: the fused minimum only counts upward. -/
def secSvnCommit (s : State) : State :=
  if s.boot.running ∧ s.nv.minSvn < s.boot.fwSvn then
    ({ s with nv := { s.nv with minSvn := s.boot.fwSvn } }.measureFuses).secDone
  else s.secDone

/-- A write of SEC_CTL: more than one bit set is ignored with reason 1; while the DIMMs are in self-refresh (R431) nothing that lies
in DDR can be read, and a request for it does nothing. (DEDUCED, log 81). -/
def writeSecCtl (s : State) (v : W32) : State :=
  match v.toNat % 16 with
  | 0 => s
  | 1 => s.secCommand
  | 2 => s.secEnrol
  | 4 => s.secMeasure
  | 8 => s.secSvnCommit
  | _ => s.secRefuse 1

end State

def execMaintenanceCommand (v : BitVec 32) (s : State) : Host.Outcome State Fault Refusal :=
  s.whenPowered fun s => .next (s.writeSecCtl v)
def execEnrol (v : BitVec 32) (s : State) : Host.Outcome State Fault Refusal :=
  s.whenPowered fun s => .next (s.writeSecCtl v)
def execMeasure (v : BitVec 32) (s : State) : Host.Outcome State Fault Refusal :=
  s.whenPowered fun s => .next (s.writeSecCtl v)
def execSvnCommit (v : BitVec 32) (s : State) : Host.Outcome State Fault Refusal :=
  s.whenPowered fun s => .next (s.writeSecCtl v)

def execSecEventClear (v : BitVec 32) (s : State) : Host.Outcome State Fault Refusal :=
  .next (s.modSec fun x => { x with event := x.event &&& ~~~ v.truncate 3 })

/-! ### Two records that a write of VALID clears (chapters 08 and 09, registers) -/

/-- MEM_UE_ADDR_HI.VALID clears both address registers. -/
def execMemUeAddrClear (i : PortId) (v : BitVec 32) (s : State) : Host.Outcome State Fault Refusal :=
  .next (if v.getLsbD 31 then s.modPort i.1 fun q => { q with ueAddr := 0, ueValid := false } else s)

/-- RTU_ERR.VALID clears TILE, CAUSE and VALID. -/
def execRtuErrClear (v : BitVec 32) (s : State) : Host.Outcome State Fault Refusal :=
  .next (if v.getLsbD 31 then { s with rtu := { s.rtu with errTile := 0, errCause := 0, errValid := false } } else s)

end Sys2Proof.Machine
end

