-- ==== Sys2Proof/Machine/LinkEvents.lean ====
section
/-!
DEFINITION. Received frames of the link layer and its timers (R311 to R314), and the delivery of data frames to the transport
(R314, R330, R332).
-/
namespace Sys2Proof.Machine

namespace State

/-- What the header of an intact frame does on its pair: acknowledgement, credits, margin, a NAK (R311 to R313). -/
def takeLinkHeader (s : State) (q : PlaneId) (c : PairId) (h : LinkHeader) : State :=
  let x := s.pair q c
  let acked := x.ackedBy h
  let s := s.setPair q c (x.takeHeader h)
  let s := (acked.filter fun u => u.relayedFrom.isNone).foldl (fun s u => s.collAcked u.frame) s
  let s := if h.nak then s.takeNak q c h else s.linkResend q c
  s.pumpAll

/-! ### KIND 8 messages (R332, R365, R379, R380, R383) -/

/-- The bytes of the body that the head of a message announces. (DESIGN CHOICE, log 66). -/
def headLen (f : Frame) : Nat :=
  if f.group = 0 then leNat ((f.payload.drop 0x18).take 8)
  else if f.group = 1 then leNat ((f.payload.drop 8).take 8)
  else 0

/-- The copies that an inventory spells. -/
def invCopies (l : List Byte) : List InvCopy :=
  (List.range (l.length / 32)).map fun i =>
    let n (o k : Nat) : Nat := leNat ((l.drop (32 * i + o)).take k)
    ⟨BitVec.ofNat 32 (n 0 4), n 4 4, n 8 4, BitVec.ofNat 32 (n 12 4), n 16 8, n 24 8⟩

/-- The state after a command that always goes on. -/
def after (s : State) (f : State → Host.Outcome State Fault Refusal) : State := match f s with
  | .next t => t
  | _ => s

/-- A whole KIND 8 message: COMMIT or INV, a stripe, its answer, or SEAL. -/
def message (s : State) (f : Frame) (body : List Byte) : State :=
  let n (o k : Nat) : Nat := leNat ((f.payload.drop o).take k)
  let w (o : Nat) : W32 := BitVec.ofNat 32 (n o 4)
  match f.group.toNat with
  | 0 =>
    let flags := n 12 1
    if flags.testBit 3 then s.after (execInv ⟨f.src, invCopies body⟩)
    else s.after (execCommitMessage
      ⟨f.src, w 0, w 4, w 8, flags.testBit 0, flags.testBit 1, flags.testBit 2, w 16, body⟩)
  | 1 => s.after (execStripe ⟨f.src, w 0, n 4 4, BitVec.ofNat 64 (n 16 8), body⟩)
  | 2 => s.after (execStripeAck f.src (w 0) (n 4 4)
      (match n 8 4 with
        | 0 => .crcBad
        | 1 => .stored
        | _ => .noRoom))
  | 3 => s.after (execSeal f.src ⟨w 0, w 4⟩)
  | _ => s

/-- One frame of a KIND 8 message: kept until the message is whole, later copies discarded (R333, R334). -/
def messageFrame (s : State) (f : Frame) : State :=
  if f.tag != s.ownTag || s.job.isNone || !(s.otherRanks.contains f.src.toNat) || f.dst.toNat != s.ownRank then s.discard
  else if s.fabric.seen8.contains (f.src, f.fidx) then s
  else
    let s := s.modFabric fun b => { b with seen8 := b.seen8 ++ [(f.src, f.fidx)], parts := b.parts ++ [f] }
    let rest (h : Frame) : List Frame := (List.range (bodyFrames (headLen h))).filterMap fun i =>
      s.fabric.parts.find? fun x => x.src == h.src && x.fidx == h.fidx + BitVec.ofNat 32 (i + 1)
    match s.fabric.parts.find? fun h => h.nblk == 1 && h.src == f.src && (rest h).length == bodyFrames (headLen h) with
    | none => s
    | some h =>
      let body := ((rest h).flatMap (·.payload)).take (headLen h)
      (s.modFabric fun b => { b with parts := b.parts.filter fun x => x != h && !(rest h).contains x }).message h body

/-! ### Delivery (R314) -/

/-- An accepted data frame reaches the transport of its fabric port, by its VIA flag and its KIND (R314, R330, R332); a reserved
KIND is discarded. (DEDUCED, log 61). -/
def transport (s : State) (q : PlaneId) (c : PairId) (f : Frame) : State :=
  if f.via then s.relayIn q c f
  else match f.kind.toNat with
    | 0 => s.discoveryIn q c f.payload
    | 1 | 2 | 3 | 4 => s.deliver f
    | 5 => s.norouteIn (s.peerFpr q c) f
    | 6 => s.joinFrame f
    | 7 => s.abortIn f
    | 8 => s.messageFrame f
    | _ => s.discard

/-- The frame counts on its plane where it is one of the running job's (FAB_PQ_RX). -/
def countRx (s : State) (q : PlaneId) (f : Frame) : State :=
  if s.isLive f && f.kind != 0 && !f.via then s.modFabric fun b => { b with rxFrames := b.rxFrames.set q (b.rxFrames[q] + 1) } else s

end State

/-- A received data frame (R310, R312 to R314), whose first byte came `h.ago` bytes before the end of the lane data received so far: one that
overlaps a bad codeword is discarded (R293), and so is one off UP or with a bad CRC; in sequence it is delivered; behind, its ACK
is repeated; ahead, a NAK is due, once per 2 µs for the gap. (DEDUCED, log 61). -/
def execDataFrame (q : PlaneId) (c : PairId) (h : RxHeader) (crcOk : Bool) (f : Frame) (s : State) :
    Host.Outcome State Fault Refusal :=
  s.whenPowered fun s =>
  let x := s.pair q c
  if x.overlaps h.ago then .next (s.setPair q c { x with freed := x.freed + 1 })
  else if x.state ≠ .up then .next (if x.state = .hold then s.setPair q c { x with freed := x.freed + 1 } else s)
  else if !crcOk then
    .next (s.setPair q c { x with crcErr := satAdd32 x.crcErr 1, freed := x.freed + 1, ackDue := true })
  else
    let s := s.takeLinkHeader q c h.toLinkHeader
    let x := s.pair q c
    let x := { x with freed := x.freed + 1, ackDue := true }
    if h.seq = x.rxNext then
      .next (((s.setPair q c { x with rxNext := x.rxNext + 1, nakDue := false, nakFor := none }).countRx q f).transport q c f)
    else if seqLe h.seq (x.rxNext - 1) then .next (s.setPair q c x)
    else .next (s.setPair q c x.askAgain)

/-- A received control frame (R311 to R313). (DEDUCED, log 61). -/
def execControlFrame (q : PlaneId) (c : PairId) (h : RxHeader) (crcOk : Bool) (s : State) :
    Host.Outcome State Fault Refusal :=
  s.whenPowered fun s =>
  let x := s.pair q c
  if x.overlaps h.ago ∨ x.state ≠ .up then .next s
  else if !crcOk then .next (s.setPair q c { x with crcErr := satAdd32 x.crcErr 1 })
  else .next (s.takeLinkHeader q c h.toLinkHeader)

/-- No ACK progress for 4 µs with frames unacknowledged (R309, R312). -/
def execReplayTimeout (q : PlaneId) (c : PairId) (s : State) : Host.Outcome State Fault Refusal :=
  let x := s.pair q c
  if x.state = .up ∧ !x.unacked.isEmpty then .next (s.takeTimeout q c) else .next s

/-- A control frame is due (R313): it carries ACK, the NAK, CREDIT and MARGIN. -/
def execControlFrameDue (q : PlaneId) (c : PairId) (s : State) : Host.Outcome State Fault Refusal :=
  let x := s.pair q c
  if x.state ≠ .up then .next s
  else .next ((s.logSent q c (x.header x.txSeq x.nakDue false) none).setPair q c { x with ackDue := false, nakDue := false })

end Sys2Proof.Machine
end

