-- ==== Sys2Proof/Machine/Memory.lean ====
section
/-!
DEFINITION. The memory ports: DDR requests and their errors, scrubbing and retraining, the atomic unit and the
gather-pool unit (R253 to R269, R281).
-/
namespace Sys2Proof.Machine

/-! ### Requests (R257 to R261) -/

namespace State

/-- A corrected access counts at its port and for the health monitor (R257). -/
def correct (s : State) (a : Nat) (rank dev : BitVec 4) : State :=
  let ch := channelOf a
  let s := s.modPort ch fun q => { q with ce := satAdd32 q.ce 1, ceDev := dev, ceRank := rank }
  let n := match s.health.ceCount.find? fun x => x.1 == ch with
    | some x => x.2
    | none => 0
  { s with health := { s.health with ceCount := (ch, n + 1) :: s.health.ceCount.filter fun x => x.1 != ch } }

/-- Mark a 64-byte access poisoned (R258). -/
def poison (s : State) (line : Nat) : State :=
  if s.poisoned.contains line then s else { s with poisoned := line :: s.poisoned }

/-- The fault of a poisoned read by its requester (R258). -/
def ueFault (s : State) (req : Requester) : State :=
  if !s.launchActive then s
  else match req with
    | .tile p => s.tileHwFault p 0x86
    | .other => s.moduleHwFault 0x86

end State

/-- A 64-byte read at a port (R257, R258). (DESIGN CHOICE, log 7). -/
def execDdrRead (addr : BitVec 48) (ecc : Ecc) (req : Requester) (s : State) : Host.Outcome State Fault Refusal :=
  s.whenServed fun s =>
  let a := addr.toNat / 64 * 64
  if !s.inDdr a 64 then .fault .notFittedDdr
  else
    let s1 := match ecc with
      | .uncorrectable => s.poison (a / 64)
      | .corrected rank dev => if s.isPoisoned a then s else s.correct a rank dev
      | .clean => s
    let s2 := { s1 with readData := s1.rdBytes a 64 }
    if s1.isPoisoned a then .next ((s2.recordUe a).ueFault req) else .next s2

/-- A 64-byte write with its byte mask, visible at acceptance; a whole write clears the poison (R258, R261).
(DESIGN CHOICE, log 7). -/
def execDdrWrite (addr : BitVec 48) (data : Vector Byte 64) (mask : BitVec 64) (s : State) :
    Host.Outcome State Fault Refusal :=
  s.whenServed fun s =>
  let a := addr.toNat / 64 * 64
  if !s.inDdr a 64 then .fault .notFittedDdr
  else .next (s.wrList ((List.finRange 64).filterMap fun i =>
    if mask.getLsbD i.1 then some (a + i.1, data[i]) else none))

/-- Patrol scrub (R259): a correction is counted and rewritten, an uncorrectable access poisoned and recorded; no
fault. (DESIGN CHOICE, log 7). -/
def execPatrolScrub (addr : BitVec 48) (ecc : Ecc) (s : State) : Host.Outcome State Fault Refusal :=
  s.whenServed fun s =>
  let a := addr.toNat / 64 * 64
  if !s.inDdr a 64 then .fault .notFittedDdr
  else match ecc with
    | .uncorrectable => .next ((s.poison (a / 64)).recordUe a)
    | .corrected rank dev => if s.isPoisoned a then .next (s.recordUe a) else .next (s.correct a rank dev)
    | .clean => if s.isPoisoned a then .next (s.recordUe a) else .next s

/-- Periodic retraining of one rank (R259): at most 2 channels at once. -/
def execRankRetrain (i : PortId) (rank : BitVec 3) (phase : TrainPhase) (s : State) :
    Host.Outcome State Fault Refusal :=
  s.whenServed fun s =>
  let q := s.ports[i]
  match phase with
  | .begins =>
    if q.retrain || decide (2 ≤ (s.ports.toList.filter (·.retrain)).length) then .next s
    else .next (s.modPort i.1 fun q => { q with retrain := true, rank := rank })
  | .ends =>
    if q.retrain then .next (s.modPort i.1 fun q => { q with retrain := false, retrains := q.retrains + 1 })
    else .next s

/-! ### The atomic unit (R263 to R266) -/

namespace State

/-- Keep a merge into the statistics area that comes after the records were read for the commit (R129). (DEDUCED, log 74). -/
def noteLateMerge (s : State) (m : StatMerge) : State :=
  let p := s.steps.phase
  if (p = .arrived ∨ p = .gateClear ∨ p = .gateVetoed) ∧ !s.steps.digest ∧ s.statsAt ≤ m.addr ∧
      m.addr < s.statsAt + s.statsLen then
    s.stepsMod fun x => { x with lateMerges := x.lateMerges ++ [(m.addr, m.record)] }
  else s

end State

/-- A DSTAT merge reaches the atomic unit, which reads the record: merged, or counted where the bases differ (R265). (DEDUCED,
log 56). -/
def execStatMerge (p : TileId) (s : State) : Host.Outcome State Fault Refusal :=
  match (s.tile p).statMerges with
  | [] => .next s
  | m :: rest =>
    let bad := s.poisonedLines ((List.range 96).map (m.addr + ·))
    let s := ((s.modTile p fun t => { t with statMerges := rest }).touchAtomic m.addr).touchAtomic (m.addr + 95)
    let target := StatRec.ofImage (s.rdBytes m.addr 96)
    let s1 :=
      if target.hbase = m.record.hbase ∧ target.binw = m.record.binw then
        (s.wrBytes m.addr (target.merge m.record).image).noteLateMerge m
      else s.modPort (State.channelOf m.addr) fun q =>
        { q with mergeErr := if q.mergeErr = 0xFFFF then q.mergeErr else q.mergeErr + 1,
                 mergeAddr := BitVec.ofNat 48 m.addr }
    .next (s1.modulePoison bad)

/-- The new value of an ATOM location (R266). -/
def atomNew (fn : Nat) (old b c : Nat) : Nat :=
  match fn with
  | 0 => (old + b) % 2 ^ 32
  | 1 => (old + b) % 2 ^ 64
  | 2 => max old b
  | 3 => b
  | 4 => if old = c then b else old
  | _ => old

/-- ATOM (R266): with rel = 1 it waits in its queue for every instruction issued before it (R158). (DEDUCED, log 4). -/
def opAtom (p : TileId) (fn : BitVec 3) (sd sa sb sc : BitVec 5) (rel : Bool) (rsv : BitVec 34) (s : State) : TileOp :=
  let t := s.tile p
  let a := (t.reg sa).toNat
  let n := if fn = 0 then 4 else 8
  let b := if fn = 0 then lo32 (t.reg sb) else (t.reg sb).toNat
  (TileOp.mk p (Layout.atom fn sd sa sb sc rel rsv) 8 [sd, sa, sb, sc]
    [chkSel (decide (6 ≤ fn.toNat)), chkRsv (rsv != 0 || (fn != 4 && sc != 0) || (fn == 5 && sb != 0)),
      { bad := a % n != 0 || !s.inDdr a n, cause := 0x60 }] false (fn != 5) fun s =>
      let old := s.rdNat a n
      let s1 := if fn = 5 then s else s.storeNat a n (atomNew fn.toNat old b (t.reg sc).toNat)
      let s2 := (s1.thenTile p fun u => u.setReg sd (BitVec.ofNat 64 old)).touchAtomic a
      (if s.isPoisoned a then (s2.recordUe a).ueFault (.tile p) else s2)).inPort (.atom p fn sd sa sb sc rel rsv) (some sd)
    (s.portStalled p || (rel && t.busyUpTo t.issueNo))

/-- Rests on a choice of the model (DEDUCED, log 56). -/
def execAtom (p : TileId) (fn : BitVec 3) (sd sa sb sc : BitVec 5) (rel : Bool) (rsv : BitVec 34) (s : State) :
    Host.Outcome State Fault Refusal := s.run (opAtom p fn sd sa sb sc rel rsv s)

/-! ### The gather-pool unit (R267 to R269) -/

/-- A bag block (R267). -/
structure BagBlock where
  idx : Nat
  off : Nat
  wgt : Nat
  nidx : Nat
  nbag : Nat

def State.bagBlock (s : State) (a : Nat) : BagBlock :=
  ⟨s.rdNat a 8, s.rdNat (a + 8) 8, s.rdNat (a + 16) 8, s.rdNat (a + 24) 4, s.rdNat (a + 28) 4⟩

def State.bagIdx (s : State) (b : BagBlock) (k : Nat) : Nat := s.rdNat (b.idx + 4 * k) 4
def State.bagOff (s : State) (b : BagBlock) (k : Nat) : Nat := s.rdNat (b.off + 4 * k) 4
def State.bagWgt (s : State) (b : BagBlock) (k : Nat) : FVal :=
  if b.wgt = 0 then FVal.one else Fmt.b32.decode (s.rdNat (b.wgt + 4 * k) 4)

/-- A bag block is malformed: cause 0x64 (R267, R281). (DEDUCED, log 55). -/
def State.badBag (s : State) (b : BagBlock) (gather : Bool) : Bool :=
  let arrays := [(b.idx, 4 * b.nidx)] ++ (if gather then [] else [(b.off, 4 * (b.nbag + 1))]) ++
    (if b.wgt = 0 then [] else [(b.wgt, 4 * b.nidx)])
  b.nidx == 0 || decide (2 ^ 20 < b.nidx) || b.idx % 4 != 0 ||
    (if gather then b.off != 0 || b.nbag != 0 else b.nbag == 0 || decide (2 ^ 20 < b.nbag)) ||
    arrays.any (fun x => !s.inDdr x.1 x.2) || !disjoint arrays ||
    (!gather && (s.bagOff b 0 != 0 || s.bagOff b b.nbag != b.nidx ||
      (List.range b.nbag).any fun k => decide (s.bagOff b (k + 1) < s.bagOff b k)))

/-- The unit's read of a bag block and its bag starts meets an uncorrectable error: a hardware fault, and no check of the values
(R258). -/
def State.bagDark (s : State) (a : Nat) (b : BagBlock) (gather : Bool) : Bool :=
  s.poisonIn a 32 || (!gather && s.poisonIn b.off (4 * (b.nbag + 1)))

/-- The bytes of a bag block and its arrays. -/
def State.bagReads (a : Nat) (b : BagBlock) (gather : Bool) : List Nat :=
  let bytes (a n : Nat) : List Nat := (List.range n).map (a + ·)
  bytes a 32 ++ bytes b.idx (4 * b.nidx) ++ (if gather then [] else bytes b.off (4 * (b.nbag + 1))) ++
    (if b.wgt = 0 then [] else bytes b.wgt (4 * b.nidx))

/-- The bags as runs of positions: each index alone for GATHER (R268). -/
def State.bags (s : State) (b : BagBlock) (gather : Bool) : List (List Nat) :=
  if gather then (List.range b.nidx).map fun k => [k]
  else (List.range b.nbag).map fun k =>
    (List.range (s.bagOff b (k + 1) - s.bagOff b k)).map (s.bagOff b k + ·)

def padIndex : Nat := 0xFFFFFFFF

/-- A non-block floating-point array type (R268). (DEDUCED, log 54). -/
def poolType (c : BitVec 5) (t : EType) : Bool := floatType c && t.block == 0

/-- The checks on the two descriptors of GPOOL and GSROW, for the rows they must have: cause 0x63. (DEDUCED, log 55). -/
def badPool (s : State) (x y : Operand) (rows1 rows2 : Nat) : Bool :=
  match x.win, y.win with
  | some a, some b =>
    !x.typeOk s poolType || !y.typeOk s poolType || a.desc.view0 != b.desc.view0 || decide (4096 < a.desc.view0) ||
      decide (a.desc.view1 < rows1) || decide (b.desc.view1 < rows2)
  | _, _ => false

/-- The window over the whole of a view, which no slot serves (R267, R269). -/
def Tile.whole (t : Tile) (h : BitVec 4) (write : Bool) : Operand :=
  { handle := h, slot := 0, write := write, slotted := false,
    win := (t.window h write 0 0 0 0).map fun w => { w with len0 := w.desc.view0, len1 := w.desc.view1 } }

/-- The end of a unit's instruction: counters at its port, the tally (R268). -/
def State.poolDone (s : State) (p : TileId) (at0 : Nat) (rows oor bags : Nat) (te : Option (BitVec 6)) : State :=
  let s := s.modPort (channelOf at0) fun q =>
    { q with gplRows := satAdd32 q.gplRows rows, gplOor := satAdd32 q.gplOor oor, gplBags := satAdd32 q.gplBags bags }
  match te with
  | some k => s.addTally p k 1
  | none => s

def opGpool (p : TileId) (fn : BitVec 2) (dt dd : BitVec 4) (sb : BitVec 5) (rnd : BitVec 2) (te : Bool)
    (t : BitVec 6) (rsv : BitVec 34) (s : State) : TileOp :=
  let u := s.tile p
  let a := (u.reg sb).toNat
  let gather := fn == 0
  let x := u.whole dt false
  let y := u.whole dd true
  let b := s.bagBlock a
  let bad60 := a % 32 != 0 || !s.inDdr a 32
  (TileOp.mk p (Layout.gpool fn dt dd sb rnd te t rsv) 8 [sb]
    [chkSel (fn == 3), chkRsv (rsv != 0 || (!te && t != 0)), chkHandle u dt false, chkHandle u dd true,
      { bad := bad60, cause := 0x60 }, { bad := badPool s x y 0 0, cause := 0x63 },
      { bad := badPool s x y 0 (if gather then b.nidx else b.nbag), cause := 0x63, late := true },
      { bad := s.badBag b gather && !s.bagDark a b gather, cause := 0x64, late := true }, { bad := rnd == 3, cause := 0x65 }]
    false true fun s =>
      if s.bagDark a b gather then s.readByModule (State.bagReads a b gather) else
      match x.win, y.win with
      | some wx, some wy =>
        match s.etype wx.desc.etype, s.etype wy.desc.etype with
        | some tx, some ty =>
          let rowsN := wx.desc.view1
          let ok (k : Nat) : Bool := decide (s.bagIdx b k < rowsN) && s.bagIdx b k != padIndex
          let copy := gather && b.wgt == 0 && wx.desc.etype == wy.desc.etype && rnd == 0
          let value (l : List Nat) (j : Nat) : FVal :=
            let term (k : Nat) : FVal :=
              if ok k then FVal.mul (s.rdElem p tx wx j (s.bagIdx b k)) (s.bagWgt b k) else FVal.zero
            if gather then term (l.headD 0)
            else
              let total := dotTotal FVal.zero (l.map term)
              let n := (l.filter ok).length
              if n = 0 then FVal.zero
              else if fn = 2 then div64 total (.fin false n 0) else total
          let bags := s.bags b gather
          let s1 := bags.zipIdx.foldl (fun s2 l => (List.range wx.desc.view0).foldl (fun s2 j =>
            let k := l.1.headD 0
            let code :=
              if copy && ok k then s.rdCode p tx wx j (s.bagIdx b k)
              else (ty.kind.conv (Rnd.ofCode rnd) 0 (value l.1 j)).code
            s2.wrCode p ty wy j l.2 code) s2) s
          let all := List.range b.nidx
          let s3 := (s1.settleWrites p ty wy).poolDone p a (all.filter ok).length
            (all.filter fun k => s.bagIdx b k != padIndex && !ok k).length bags.length (if te then some t else none)
          s3.modulePoison (s.poisonedLines (State.bagReads a b gather ++
            (all.filter ok).flatMap fun k => ({ wx with a := 0, b := s.bagIdx b k, len1 := 1 } : Window).readBytes p tx))
        | _, _ => s
      | _, _ => s).named (.gpool p fn dt dd sb rnd te t rsv) u [x, y] (s.portStalled p)

/-- Rests on a choice of the model (DEDUCED, log 54). -/
def execGpool (p : TileId) (fn : BitVec 2) (dt dd : BitVec 4) (sb : BitVec 5) (rnd : BitVec 2) (te : Bool)
    (t : BitVec 6) (rsv : BitVec 34) (s : State) :
    Host.Outcome State Fault Refusal := s.run (opGpool p fn dt dd sb rnd te t rsv s)

/-- The distinct indices of a bag block in ascending order, padding aside (R269). (DEDUCED, log 54). -/
def State.distinctRows (s : State) (b : BagBlock) : List Nat :=
  let rec insert (x : Nat) : List Nat → List Nat
    | [] => [x]
    | y :: ys => if x < y then x :: y :: ys else if x = y then y :: ys else y :: insert x ys
  ((List.range b.nidx).map (s.bagIdx b)).foldl (fun l r => if r = padIndex then l else insert r l) []

def opGsrow (p : TileId) (fn : BitVec 2) (dg dr : BitVec 4) (sb so : BitVec 5) (rnd : BitVec 2) (te : Bool)
    (t : BitVec 6) (rsv : BitVec 29) (s : State) : TileOp :=
  let u := s.tile p
  let a := (u.reg sb).toNat
  let l := (u.reg so).toNat
  let gather := fn == 0
  let x := u.whole dg false
  let y := u.whole dr true
  let b := s.bagBlock a
  let rowIdx := s.rdNat (l + 8) 8
  let dark := s.bagDark a b gather || s.poisonIn l 16
  (TileOp.mk p (Layout.gsrow fn dg dr sb so rnd te t rsv) 8 [sb, so]
    [chkSel (fn == 3), chkRsv (rsv != 0 || (!te && t != 0)), chkHandle u dg false, chkHandle u dr true,
      { bad := a % 32 != 0 || !s.inDdr a 32 || l % 16 != 0 || !s.inDdr l 16, cause := 0x60 },
      { bad := rowIdx % 4 != 0 || !s.inDdr rowIdx (4 * (s.distinctRows b).length), cause := 0x60, late := true },
      { bad := badPool s x y 0 0, cause := 0x63 },
      { bad := badPool s x y (if gather then b.nidx else b.nbag) b.nidx, cause := 0x63, late := true },
      { bad := s.badBag b gather && !dark, cause := 0x64, late := true }, { bad := rnd == 3, cause := 0x65 }]
    false true fun s =>
      if dark then s.readByModule ((List.range 16).map (l + ·) ++ State.bagReads a b gather) else
      match x.win, y.win with
      | some wx, some wy =>
        match s.etype wx.desc.etype, s.etype wy.desc.etype with
        | some tx, some ty =>
          let bags := s.bags b gather
          let ok (k : Nat) : Bool := s.bagIdx b k != padIndex
          let rows := s.distinctRows b
          let terms (r j : Nat) : List FVal := bags.zipIdx.flatMap fun bag => bag.1.filterMap fun k =>
            if s.bagIdx b k ≠ r then none
            else
              let v := FVal.mul (s.bagWgt b k) (s.rdElem p tx wx j bag.2)
              some (if fn = 2 then div64 v (.fin false (bag.1.filter ok).length 0) else v)
          let s1 := rows.zipIdx.foldl (fun s2 r => (List.range wx.desc.view0).foldl (fun s2 j =>
            s2.wrCode p ty wy j r.2
              (ty.kind.conv (Rnd.ofCode rnd) 0 (dotTotal FVal.zero (terms r.1 j))).code) s2) s
          let s2 := (s1.settleWrites p ty wy).wrNat l 4 rows.length
          let s3 := s2.wrBytes rowIdx (rows.flatMap fun r => leBytes r 4)
          let s4 := s3.poolDone p a bags.length 0 rows.length (if te then some t else none)
          s4.modulePoison (s.poisonedLines ((List.range 8).map (l + 8 + ·) ++ State.bagReads a b gather ++
            ({ wx with a := 0, b := 0, len1 := bags.length } : Window).readBytes p tx))
        | _, _ => s
      | _, _ => s).named (.gsrow p fn dg dr sb so rnd te t rsv) u [x, y] (s.portStalled p)

def execGsrow (p : TileId) (fn : BitVec 2) (dg dr : BitVec 4) (sb so : BitVec 5) (rnd : BitVec 2) (te : Bool)
    (t : BitVec 6) (rsv : BitVec 29) (s : State) :
    Host.Outcome State Fault Refusal := s.run (opGsrow p fn dg dr sb so rnd te t rsv s)

end Sys2Proof.Machine
end

