-- ==== Sys2Proof/Machine/Pmbus.lean ====
section
/-!
DEFINITION. The PMBus commands of the standby controller and its I3C address (R415, R434, R442).
-/
namespace Sys2Proof.Machine

namespace State

/-- A command is acknowledged with these data bytes; below 36 V the controller does not answer. -/
def answer (s : State) (l : List Byte) : State :=
  s.modStandby fun x => if x.supply then { x with ack := true, reply := l } else { x with ack := false, reply := [] }

/-- A command or write that is not acknowledged: CML is set. -/
def notAcked (s : State) : State :=
  s.modStandby fun x => { x with ack := false, reply := [], cml := x.cml || x.supply }

/-- A read command. (DEDUCED, log 87). -/
def pmbusRead (s : State) (l : List Byte) : Host.Outcome State Fault Refusal := .next (s.answer l)

/-- A write that is accepted, if the controller runs. -/
def pmbusWrite (s : State) (f : State → State) : Host.Outcome State Fault Refusal :=
  .next (if s.standby.supply then (f s).answer [] else s.answer [])

end State

/-- A word, low byte first. -/
def wordBytes (w : BitVec 16) : List Byte := leBytes w.toNat 2

/-- The bytes of an ASCII string. -/
def ascii (s : String) : List Byte := s.toList.map fun c => BitVec.ofNat 8 c.toNat

/-- A block read: its length, then its bytes. -/
def blockRead (s : String) : List Byte := leBytes (ascii s).length 1 ++ ascii s

/-- The value of a LINEAR11 word lies in [lo/10, hi/10]. -/
def limitInRange (w : BitVec 16) (lo hi : Nat) : Bool :=
  let v := linear11Value w
  decide ((lo : Int) * v.2 ≤ v.1 * 10) && decide (v.1 * 10 ≤ (hi : Int) * v.2)

/-- The LINEAR11 encodings of num/den: mantissa times a power of two, each within one unit of the finest exponent that holds the
value. (DEDUCED, log 87). -/
def linear11Codes (num : Int) (den : Nat) : List (BitVec 16) :=
  -- over 2^16 every exponent from -16 to 15 is whole
  let x := num * 2 ^ 16
  let unit (e : Nat) : Int := (den : Int) * 2 ^ e
  let fits (m : Int) : Bool := decide (-1024 ≤ m) && decide (m ≤ 1023)
  match (List.range 32).find? fun e => fits (x / unit e) && fits (-((-x) / unit e)) with
  | none => [if num < 0 then 0x7C00 else 0x7BFF]
  | some e0 => (List.range 32).flatMap fun e =>
      [x / unit e, x / unit e + 1].filterMap fun m =>
        if fits m && decide (x - m * unit e < unit e0) && decide (m * unit e - x < unit e0) then
          some (BitVec.ofInt 5 ((e : Int) - 16) ++ BitVec.ofInt 11 m)
        else none

/-- A reading in LINEAR11 (R434). (DEDUCED, log 87). -/
def linear11 (num : Int) (den : Nat) : BitVec 16 :=
  let l := linear11Codes num den
  l.getD (Config.linear11 num den % l.length) 0

/-- A reading whose sensor is read only while the module is powered: a free value otherwise. (DEDUCED, log 87). -/
def State.pmbusReading (s : State) (num : Int) (den : Nat) : Host.Outcome State Fault Refusal :=
  if s.powered then s.pmbusRead (wordBytes (linear11 num den))
  else s.takeFree.2.pmbusRead (wordBytes (s.takeFree.1.truncate 16))

/-- OPERATION: off is as PWR_EN deasserted, but for the pin; on starts the rails again. (DEDUCED, log 84). -/
def execOperation (w : Option (BitVec 8)) (s : State) : Host.Outcome State Fault Refusal :=
  match w with
  | none => s.pmbusRead [s.standby.operation]
  | some v =>
    if v = 0x80 then s.pmbusWrite fun s => (s.modStandby fun x => { x with operation := 0x80 }).startRails
    else if v = 0 then s.pmbusWrite fun s => s.powerDown.modStandby fun x => { x with operation := 0 }
    else .next s.notAcked

/-- The warnings of STATUS_INPUT whose conditions hold. Unpowered no sample ends one: bits 5 and 6 hold by the supply last
seen, bit 1 while the rails are up and the current last seen is above its limit. (DEDUCED, log 86). -/
def State.inputsHeld (s : State) : Byte :=
  let x := s.standby
  let bit (b : Bool) (i : Nat) : Byte := if b then BitVec.ofNat 8 (2 ^ i) else 0
  if s.powered then x.liveInput
  else x.liveInput &&& (bit (belowLimit x.vin.toNat 100 x.uvLimit) 5 ||| bit (aboveLimit x.vin.toNat 100 x.ovLimit) 6 |||
    bit (x.pg && aboveLimit s.power.iin.toNat 10 x.ocLimit) 1)

/-- Status bits whose conditions have ended go; a latched fault stays. (DEDUCED, log 86). -/
def execClearFaults (s : State) : Host.Outcome State Fault Refusal :=
  s.pmbusWrite fun s =>
    let live (b : Bool) (i : Nat) : Byte := if b then BitVec.ofNat 8 (2 ^ i) else 0
    let w := s.power
    s.modStandby fun x => { x with
      statusInput := x.statusInput &&& (s.inputsHeld ||| (if x.faultLatched then 0x94 else 0)), statusTemp := 0, cml := false,
      statusMfr := x.statusMfr &&& (live w.coolWarn 0 ||| live w.flowLow 1 ||| live w.shutdown 2 ||| live w.trip 3) }

def execCapability (s : State) : Host.Outcome State Fault Refusal := s.pmbusRead [0xD0]

/-- Rests on a choice of the model (PRESUMED, log 85). -/
def execSmbalertMask (code : BitVec 8) (w : Option (BitVec 8)) (s : State) : Host.Outcome State Fault Refusal :=
  if code ≠ 0x78 ∧ code ≠ 0x79 ∧ code ≠ 0x7C ∧ code ≠ 0x7D ∧ code ≠ 0x80 then .next s.notAcked
  else
    match w with
    | none => s.pmbusRead [match s.standby.masks.find? fun x => x.1 == code with
        | some x => x.2
        | none => 0]
    | some v => s.pmbusWrite fun s =>
      s.modStandby fun x => { x with masks := (code, v) :: x.masks.filter fun y => y.1 != code }

def execVinOvWarnLimit (w : Option (BitVec 16)) (s : State) : Host.Outcome State Fault Refusal :=
  match w with
  | none => s.pmbusRead (wordBytes s.standby.ovLimit)
  | some v =>
    if limitInRange v 450 580 then s.pmbusWrite fun s => s.modStandby fun x => { x with ovLimit := v } else .next s.notAcked

def execVinUvWarnLimit (w : Option (BitVec 16)) (s : State) : Host.Outcome State Fault Refusal :=
  match w with
  | none => s.pmbusRead (wordBytes s.standby.uvLimit)
  | some v =>
    if limitInRange v 430 492 then s.pmbusWrite fun s => s.modStandby fun x => { x with uvLimit := v } else .next s.notAcked

def execIinOcWarnLimit (w : Option (BitVec 16)) (s : State) : Host.Outcome State Fault Refusal :=
  match w with
  | none => s.pmbusRead (wordBytes s.standby.ocLimit)
  | some v =>
    if limitInRange v 1000 3000 then s.pmbusWrite fun s => s.modStandby fun x => { x with ocLimit := v }
    else .next s.notAcked

namespace State

/-- STATUS_WORD of PMBus 1.4: its low byte is STATUS_BYTE. (PRESUMED, log 85). -/
def statusWord (s : State) : BitVec 16 :=
  let x := s.standby
  let bit (b : Bool) (i : Nat) : BitVec 16 := if b then BitVec.ofNat 16 (2 ^ i) else 0
  let input := x.statusInput != 0
  let mfr := x.statusMfr != 0
  bit (!x.pg) 6 ||| bit (x.statusInput.getLsbD 4) 3 ||| bit (x.statusTemp != 0) 2 ||| bit x.cml 1 |||
    bit ((x.statusInput &&& 0xEF) != 0 || mfr) 0 ||| bit input 13 ||| bit mfr 12 ||| bit (!x.pg) 11

/-- The hottest tile and its temperature: the lowest p on a tie; zero without a numbered tile. -/
def hottest (s : State) : Nat × BitVec 16 :=
  match s.l2p with
  | [] => (0, 0)
  | p :: l => l.foldl (fun b q => if b.2.toInt < (s.tile q).therm.tj.toInt then (q.1, (s.tile q).therm.tj) else b)
    (p.1, (s.tile p).therm.tj)

end State

def execStatusByte (s : State) : Host.Outcome State Fault Refusal := s.pmbusRead [s.statusWord.truncate 8]
def execStatusWord (s : State) : Host.Outcome State Fault Refusal := s.pmbusRead (wordBytes s.statusWord)
/-- Rests on a choice of the model (PRESUMED, log 85). -/
def execStatusInput (s : State) : Host.Outcome State Fault Refusal := s.pmbusRead [s.standby.statusInput]
/-- Rests on a choice of the model (PRESUMED, log 85). -/
def execStatusTemperature (s : State) : Host.Outcome State Fault Refusal := s.pmbusRead [s.standby.statusTemp]
def execStatusMfrSpecific (s : State) : Host.Outcome State Fault Refusal := s.pmbusRead [s.standby.statusMfr]

def execReadVin (s : State) : Host.Outcome State Fault Refusal :=
  s.pmbusRead (wordBytes (linear11 s.standby.vin.toNat 100))
def execReadIin (s : State) : Host.Outcome State Fault Refusal :=
  s.pmbusReading s.power.iin.toNat 10
def execReadTemperature1 (s : State) : Host.Outcome State Fault Refusal :=
  s.pmbusReading s.hottest.2.toInt 4
def execReadTemperature2 (s : State) : Host.Outcome State Fault Refusal :=
  s.pmbusReading s.power.mainInlet.toInt 8
def execReadTemperature3 (s : State) : Host.Outcome State Fault Refusal :=
  s.pmbusReading s.power.optInlet.toInt 8
def execReadPin (s : State) : Host.Outcome State Fault Refusal :=
  s.pmbusReading s.power.pin.toNat 1

def execPmbusRevision (s : State) : Host.Outcome State Fault Refusal := s.pmbusRead [0x44]
def execMfrId (s : State) : Host.Outcome State Fault Refusal := s.pmbusRead (blockRead "NGUMUS")
def execMfrModel (s : State) : Host.Outcome State Fault Refusal := s.pmbusRead (blockRead "OXV-P1152")
def execMfrRevision (s : State) : Host.Outcome State Fault Refusal := s.pmbusRead (blockRead "B1")

/-- MFR_POWER_CAP reads and sets the CAP_SET of PWR_CAP, in W (R435). (DEDUCED, log 87). -/
def execMfrPowerCap (w : Option (BitVec 16)) (s : State) : Host.Outcome State Fault Refusal :=
  match w with
  | none => s.pmbusRead (leBytes s.power.cap.toNat 2)
  | some v =>
    match s.setCap v.toNat with
    | some t => s.pmbusWrite fun s => if s.powered then t else s
    | none => .next s.notAcked

def execMfrReadFlowMain (s : State) : Host.Outcome State Fault Refusal :=
  s.pmbusReading s.power.mainFlow.toNat 10
def execMfrReadFlowOpt (s : State) : Host.Outcome State Fault Refusal :=
  s.pmbusReading s.power.optFlow.toNat 10

def execPmbusUnsupported (_code : BitVec 8) (_isWrite : Bool) (s : State) : Host.Outcome State Fault Refusal :=
  .next s.notAcked

/-- SETDASA gives the I3C target its dynamic address (R442). -/
def execSetdasa (addr : BitVec 7) (s : State) : Host.Outcome State Fault Refusal :=
  .next (if s.standby.supply then s.modStandby fun x => { x with i3cAddr := some addr } else s)

end Sys2Proof.Machine
end

