-- ==== Sys2Proof/Machine/Interrupts.lean ====
section
/-!
DEFINITION. The interrupts of the host complex (R395, R453): the sources, the two domains of the APLIC and the interrupt files of
the IMSICs, as the RISC-V Advanced Interrupt Architecture 1.0 has them.
-/
namespace Sys2Proof.Machine

/-- The 64 bits that a predicate picks. -/
def bits64 (f : Nat → Bool) : BitVec 64 :=
  (List.range 64).foldl (fun m n => if f n then m ||| BitVec.ofNat 64 (2 ^ n) else m) 0

/-! ### Sources (R395) -/

namespace State

/-- Any bit of ETH_P_EVENT of port p. -/
def ethRaised (s : State) (p : Nat) : Bool := (s.eth.getD p .reset).event != 0

/-- The level of interrupt source n: high while any of its bits is set. -/
def sourceLevel (s : State) (n : Nat) : Bool :=
  match n with
  | 1 => s.launch.doneIrq
  | 2 => s.launch.endIrq || s.launch.writeWhileRun
  | 3 => s.launch.revokeDone || s.launch.revokeErr
  | 4 => s.light.combs.event != 0 || s.light.planes.toList.any fun x => x.event != 0
  | 5 => s.health.event != 0
  | 6 => s.ports.toList.any fun x => x.ueValid || x.trainFail
  | 7 => s.rtu.errValid
  | 8 => s.mesh.svcValid || s.mesh.tileFault
  | 9 => s.power.event != 0
  | 10 => s.ethRaised 0
  | 11 => s.ethRaised 1
  | 12 => s.ethRaised 2
  | 13 => s.ethRaised 3
  | 14 => s.ethRaised 4
  | 15 => s.sec.event != 0
  | 16 => s.boot.flashDone || s.boot.flashErr
  | _ => false

end State

/-! ### The APLIC (PRESUMED, log 106) -/

/-- Set or clear one of 64 bits. -/
def putBit (m : BitVec 64) (n : Nat) (b : Bool) : BitVec 64 :=
  if b then m ||| BitVec.ofNat 64 (2 ^ n) else m &&& ~~~ BitVec.ofNat 64 (2 ^ n)

namespace Aplic

/-- Source n is delegated to the child domain (D in sourcecfg). -/
def delegated (x : Aplic) (n : Nat) : Bool := (x.sourcecfg.getD n 0).getLsbD 10

/-- SM of sourcecfg: 0 inactive, 1 detached, 4 rising edge, 5 falling edge, 6 high level, 7 low level. -/
def mode (x : Aplic) (n : Nat) : Nat := if x.delegated n then 0 else (x.sourcecfg.getD n 0).toNat % 8

def level (x : Aplic) (n : Nat) : Bool := decide (6 ≤ x.mode n)

/-- The rectified input of source n for the level of its wire. -/
def rectify (x : Aplic) (n : Nat) (wire : Bool) : Bool :=
  match x.mode n with
  | 4 => wire
  | 5 => !wire
  | 6 => wire
  | 7 => !wire
  | _ => false

/-- The wires are seen: a rise of a rectified input makes its source pending, and a low level input ends it.
(PRESUMED, log 106). -/
def sense (x : Aplic) (wire : Nat → Bool) : Aplic :=
  let now := bits64 fun n => n != 0 && x.rectify n (wire n)
  { x with rectified := now, ip := (x.ip ||| (now &&& ~~~ x.rectified)) &&& ~~~ bits64 fun n => x.level n && !now.getLsbD n }

/-- The sources that the domain forwards now, lowest first. -/
def due (x : Aplic) : List Nat := if x.ie then (List.range 64).filter fun n => x.ip.getLsbD n && x.enabled.getLsbD n else []

/-- A write of SM; the other bits of an inactive source go. -/
def setMode (x : Aplic) (n : Nat) (v : BitVec 11) : Aplic :=
  let y := { x with sourcecfg := x.sourcecfg.setIfInBounds n v }
  if y.mode n = 0 then
    { y with ip := putBit y.ip n false, enabled := putBit y.enabled n false, rectified := putBit y.rectified n false,
             target := y.target.setIfInBounds n 0 }
  else { y with rectified := putBit y.rectified n false }

/-- A write that makes source n pending: a level source only while its rectified input is high. -/
def setPending (x : Aplic) (n : Nat) : Aplic :=
  if n = 0 ∨ 64 ≤ n ∨ x.mode n = 0 ∨ (x.level n ∧ !x.rectified.getLsbD n) then x else { x with ip := putBit x.ip n true }

def clearPending (x : Aplic) (n : Nat) : Aplic := if n = 0 ∨ 64 ≤ n then x else { x with ip := putBit x.ip n false }

def setEnabled (x : Aplic) (n : Nat) (b : Bool) : Aplic :=
  if n = 0 ∨ 64 ≤ n ∨ x.mode n = 0 then x else { x with enabled := putBit x.enabled n b }

/-- Apply an update to every source whose bit is set in word k. -/
def eachBit (x : Aplic) (k : Nat) (v : W32) (f : Aplic → Nat → Aplic) : Aplic :=
  (List.range 32).foldl (fun y i => if v.getLsbD i then f y (32 * k + i) else y) x

/-- Word k of an array of 1,024 bits of which 64 exist. -/
def wordOf (m : BitVec 64) (k : Nat) : W32 := m.extractLsb' (32 * k) 32

/-- A register of a domain. The MSI address registers of the machine-level domain are fixed to the layout of R453. -/
def read (x : Aplic) (isMachine : Bool) (off : Nat) : W32 :=
  if off = 0 then 0x8000_0004 ||| (if x.ie then 0x100 else 0)
  else if off < 0x1000 then (x.sourcecfg.getD (off / 4) 0).zeroExtend 32
  else if off = 0x1BC0 then (if isMachine then 0xFF02_4000 else 0)
  else if off = 0x1BC4 then (if isMachine then 0x8000_4007 else 0)
  else if off = 0x1BC8 then (if isMachine then 0xFF02_8000 else 0)
  else if off = 0x1BCC then (if isMachine then 7 else 0)
  else if 0x1C00 ≤ off ∧ off < 0x1C80 then wordOf x.ip ((off - 0x1C00) / 4)
  else if 0x1D00 ≤ off ∧ off < 0x1D80 then wordOf x.rectified ((off - 0x1D00) / 4)
  else if 0x1E00 ≤ off ∧ off < 0x1E80 then wordOf x.enabled ((off - 0x1E00) / 4)
  else if off = 0x3000 then x.genmsi
  else if 0x3004 ≤ off then x.target.getD ((off - 0x3000) / 4) 0
  else 0

end Aplic

/-- The bytes of a word in the other order (setipnum_be). -/
def swapBytes (v : W32) : W32 := v.extractLsb' 0 8 ++ v.extractLsb' 8 8 ++ v.extractLsb' 16 8 ++ v.extractLsb' 24 8

/-- An interrupt file takes an MSI: an implemented identity becomes pending. -/
def Imsic.take (x : Imsic) (id : Nat) : Imsic :=
  if 0 < id ∧ id ≤ 63 + 64 * (Config.imsicSize % 32) then { x with eip := x.eip ||| BitVec.ofNat 2048 (2 ^ id) } else x

namespace Irq

def domain (x : Irq) (isMachine : Bool) : Aplic := if isMachine then x.machine else x.supervisor
def setDomain (x : Irq) (isMachine : Bool) (y : Aplic) : Irq :=
  if isMachine then { x with machine := y } else { x with supervisor := y }

/-- An MSI reaches the interrupt file of a hart; there is none for a hart that does not exist. -/
def msi (x : Irq) (isMachine : Bool) (hart id : Nat) : Irq :=
  if isMachine then { x with mFiles := x.mFiles.setIfInBounds hart ((x.mFiles.getD hart .reset).take id) }
  else { x with sFiles := x.sFiles.setIfInBounds hart ((x.sFiles.getD hart .reset).take id) }

/-- What a domain forwards: an MSI for every pending and enabled source, which is then pending no more. (PRESUMED, log 106). -/
def forward (x : Irq) (isMachine : Bool) : Irq :=
  (x.domain isMachine).due.foldl (fun x n =>
    let d := x.domain isMachine
    let t := (d.target.getD n 0).toNat
    (x.setDomain isMachine (d.clearPending n)).msi isMachine (t / 2 ^ 18) (t % 2048)) x

/-- The wires reach both domains: those delegated go to the supervisor-level one. (PRESUMED, log 106). -/
def settle (x : Irq) (wire : Nat → Bool) : Irq :=
  (({ x with machine := x.machine.sense wire,
             supervisor := x.supervisor.sense fun n => x.machine.delegated n && wire n } : Irq).forward true).forward false

/-- A write of sourcecfg: D delegates from the machine-level domain only, and a write of 1 to it in the supervisor-level domain, a
leaf, makes the register zero; SM 2 and 3 are reserved and leave the register; a source that its parent keeps is not there in the
child. -/
def writeSourcecfg (x : Irq) (isMachine : Bool) (n : Nat) (v : W32) : Irq :=
  if n = 0 ∨ 64 ≤ n ∨ (!isMachine && !x.machine.delegated n) then x
  else if !isMachine && v.getLsbD 10 then x.setDomain false (x.supervisor.setMode n 0)
  else if isMachine && v.getLsbD 10 then { x with machine := x.machine.setMode n 0x400 }
  else if v.toNat % 8 = 2 ∨ v.toNat % 8 = 3 then x
  else
    let y := x.setDomain isMachine ((x.domain isMachine).setMode n (v.truncate 3 |>.zeroExtend 11))
    if isMachine then { y with supervisor := y.supervisor.setMode n 0 } else y

/-- A write of a register of a domain. -/
def writeDomain (x : Irq) (isMachine : Bool) (off : Nat) (v : W32) : Irq :=
  let up (f : Aplic → Aplic) : Irq := x.setDomain isMachine (f (x.domain isMachine))
  if off = 0 then up fun d => { d with ie := v.getLsbD 8 }
  else if off < 0x1000 then x.writeSourcecfg isMachine (off / 4) v
  else if 0x1C00 ≤ off ∧ off < 0x1C80 then up fun d => d.eachBit ((off - 0x1C00) / 4) v Aplic.setPending
  else if off = 0x1CDC ∨ off = 0x2000 then up fun d => d.setPending v.toNat
  else if off = 0x2004 then up fun d => d.setPending (swapBytes v).toNat
  else if 0x1D00 ≤ off ∧ off < 0x1D80 then up fun d => d.eachBit ((off - 0x1D00) / 4) v Aplic.clearPending
  else if off = 0x1DDC then up fun d => d.clearPending v.toNat
  else if 0x1E00 ≤ off ∧ off < 0x1E80 then up fun d => d.eachBit ((off - 0x1E00) / 4) v fun d n => d.setEnabled n true
  else if off = 0x1EDC then up fun d => d.setEnabled v.toNat true
  else if 0x1F00 ≤ off ∧ off < 0x1F80 then up fun d => d.eachBit ((off - 0x1F00) / 4) v fun d n => d.setEnabled n false
  else if off = 0x1FDC then up fun d => d.setEnabled v.toNat false
  else if off = 0x3000 then
    (up fun d => { d with genmsi := v &&& 0x003C_07FF }).msi isMachine (v.toNat / 2 ^ 18 % 16) (v.toNat % 2048)
  else if 0x3004 ≤ off then
    let n := (off - 0x3000) / 4
    if (x.domain isMachine).mode n = 0 then x
    else up fun d => { d with target := d.target.setIfInBounds n (v &&& 0x003C_07FF) }
  else x

/-- A write of the page of an interrupt file: seteipnum_le and seteipnum_be. -/
def writeFile (x : Irq) (isMachine : Bool) (hart off : Nat) (v : W32) : Irq :=
  if off = 0 then x.msi isMachine hart v.toNat
  else if off = 4 then x.msi isMachine hart (swapBytes v).toNat
  else x

end Irq

namespace State

/-- The interrupt controllers follow the levels of the sources. (PRESUMED, log 106). (DESIGN CHOICE, log 2). -/
def settleIrq (s : State) : State := { s with irq := s.irq.settle s.sourceLevel }

end State

end Sys2Proof.Machine
end

