-- ==== Sys2Proof/Machine/Harts.lean ====
section
/-!
DEFINITION. What the harts of the host complex hold besides their programs: which of them run (R393), their caches of DDR (R394), and
the interrupts that their IMSICs deliver to them (R395). No row of the table is one of these actions of a hart: a 4-byte store is.
-/
namespace Sys2Proof.Machine

/-- A hart of the host complex (R393). -/
abbrev HartId := Fin 16

namespace State

/-! ### Running (R393) -/

/-- A hart runs: hart 0 from the start of the module, each other once firmware has released it. -/
def hartRuns (s : State) (h : HartId) : Bool := s.powered && !s.boot.harts.getLsbD h.1

/-- Firmware releases a hart from reset. (DESIGN CHOICE, log 109). -/
def releaseHart (s : State) (h : HartId) : State :=
  if s.powered && s.boot.running then { s with boot := { s.boot with harts := s.boot.harts &&& ~~~ BitVec.ofNat 16 (2 ^ h.1) } } else s

/-! ### Caches of DDR (R394) -/

def modLines (s : State) (f : List CacheLine → List CacheLine) : State := { s with boot := { s.boot with lines := f s.boot.lines } }

def cached (s : State) (l : Nat) : Option CacheLine := s.boot.lines.find? (·.line == l)

/-- The device has written to the line since it was filled: what the harts read of it is unpredictable. -/
def staleLine (s : State) (x : CacheLine) : Bool := x.seen != s.rdBytes (64 * x.line) 64

/-- A line is read into the caches; poison is met as by any requester of the host complex (R258). -/
def cacheFill (s : State) (l : Nat) : State := match s.cached l with
  | some _ => s
  | none =>
    let b := s.rdBytes (64 * l) 64
    (s.modLines (⟨l, b, b, false⟩ :: ·)).readByModule [64 * l]

/-- The lines that n bytes from an address lie in. -/
def linesOf (a n : Nat) : List Nat := ((List.range n).map fun i => (a + i) / 64).eraseDups

/-- A load from DDR through the caches: of a stale line the bytes are free, and nothing else is. (DESIGN CHOICE, log 109). -/
def cacheLoad (s : State) (a n : Nat) : List Byte × State :=
  let s := (linesOf a n).foldl cacheFill s
  let k := s.freeCtr
  ((List.range n).map fun i => match s.cached ((a + i) / 64) with
    | some x => if s.staleLine x then Config.freeByte k i else x.data.getD ((a + i) % 64) 0
    | none => 0, { s with freeCtr := k + 1 })

/-- One byte of a store. -/
def cachePut (s : State) (a : Nat) (v : Byte) : State :=
  s.modLines fun l => l.map fun x =>
    if x.line = a / 64 then { x with data := x.data.set (a % 64) v, dirty := true } else x

/-- A store to DDR stays in the caches until its line is written back. (DESIGN CHOICE, log 109). -/
def cacheStore (s : State) (a : Nat) (l : List Byte) : State :=
  l.zipIdx.foldl (fun s x => s.cachePut (a + x.2) x.1) ((linesOf a l.length).foldl cacheFill s)

/-- CBO.FLUSH: the line leaves the caches, and its stores reach memory; where the device wrote to it as well, its bytes are free.
(DESIGN CHOICE, log 109). -/
def cacheFlush (s : State) (a : Nat) : State := match s.cached (a / 64) with
  | none => s
  | some x =>
    let t := s.modLines (·.filter (·.line != x.line))
    if !x.dirty then t
    else if s.staleLine x then t.scramble ((List.range 64).map (64 * x.line + ·))
    else t.wrBytes (64 * x.line) x.data

/-- CBO.INVAL: the line leaves the caches, and its stores with it. -/
def cacheInval (s : State) (a : Nat) : State := s.modLines (·.filter (·.line != a / 64))

end State

/-! ### Interrupt files seen by their hart (R395; PRESUMED, log 106) -/

namespace Imsic

/-- The identities that a file implements. -/
def count : Nat := 63 + 64 * (Config.imsicSize % 32)

/-- The interrupt of a file: the lowest identity that is pending and enabled, and below a threshold that is not 0. -/
def best (x : Imsic) : Option Nat :=
  (List.range (count + 1)).find? fun n =>
    n != 0 && x.eip.getLsbD n && x.eie.getLsbD n && (x.threshold == 0 || decide (n < x.threshold.toNat))

/-- The file signals its hart. -/
def raised (x : Imsic) : Bool := x.delivery == 1 && x.best.isSome

/-- The bits 64k to 64k + 63 of an array, replaced. -/
def putWord (m : BitVec 2048) (k : Nat) (v : W64) : BitVec 2048 :=
  (m &&& ~~~ ((0xFFFF_FFFF_FFFF_FFFF#64).zeroExtend 2048 <<< (64 * k))) ||| (v.zeroExtend 2048 <<< (64 * k))

/-- Identity 0 and those beyond the file's are read-only zero. -/
def kept (m : BitVec 2048) : BitVec 2048 := m &&& (BitVec.ofNat 2048 (2 ^ (count + 1) - 2))

/-- A write of a register of the file by a CSR instruction of its hart: 0x70 eidelivery, 0x72 eithreshold, from 0x80 eip and from
0xC0 eie, by even numbers. (PRESUMED, log 106). -/
def writeReg (x : Imsic) (sel : Nat) (v : W64) : Imsic :=
  if sel = 0x70 then (if v.toNat ≤ 1 then { x with delivery := v.truncate 32 } else x)
  else if sel = 0x72 then { x with threshold := if v.toNat ≤ count then v.truncate 32 else x.threshold }
  else if 0x80 ≤ sel ∧ sel < 0xC0 ∧ sel % 2 = 0 then { x with eip := kept (putWord x.eip ((sel - 0x80) / 2) v) }
  else if 0xC0 ≤ sel ∧ sel < 0x100 ∧ sel % 2 = 0 then { x with eie := kept (putWord x.eie ((sel - 0xC0) / 2) v) }
  else x

/-- What those registers read. -/
def readReg (x : Imsic) (sel : Nat) : W64 :=
  if sel = 0x70 then x.delivery.zeroExtend 64
  else if sel = 0x72 then x.threshold.zeroExtend 64
  else if 0x80 ≤ sel ∧ sel < 0xC0 ∧ sel % 2 = 0 then x.eip.extractLsb' (64 * ((sel - 0x80) / 2)) 64
  else if 0xC0 ≤ sel ∧ sel < 0x100 ∧ sel % 2 = 0 then x.eie.extractLsb' (64 * ((sel - 0xC0) / 2)) 64
  else 0

/-- A write of mtopei or stopei: the interrupt is claimed, and pending no more. (PRESUMED, log 106). -/
def claim (x : Imsic) : Imsic := match x.best with
  | some n => { x with eip := x.eip &&& ~~~ BitVec.ofNat 2048 (2 ^ n) }
  | none => x

end Imsic

namespace State

def imsic (s : State) (isMachine : Bool) (h : HartId) : Imsic := if isMachine then s.irq.mFiles[h] else s.irq.sFiles[h]

def modImsic (s : State) (isMachine : Bool) (h : HartId) (f : Imsic → Imsic) : State :=
  if isMachine then { s with irq := { s.irq with mFiles := s.irq.mFiles.set h (f s.irq.mFiles[h]) } }
  else { s with irq := { s.irq with sFiles := s.irq.sFiles.set h (f s.irq.sFiles[h]) } }

/-- The external interrupt of a hart at machine or supervisor level (MEIP, SEIP) is pending. (PRESUMED, log 106). -/
def hartInterrupt (s : State) (isMachine : Bool) (h : HartId) : Bool := s.hartRuns h && (s.imsic isMachine h).raised

/-- A running hart writes a register of its own file, or claims its interrupt. -/
def hartWritesImsic (s : State) (isMachine : Bool) (h : HartId) (sel : Nat) (v : W64) : State :=
  if s.hartRuns h then s.modImsic isMachine h (·.writeReg sel v) else s
def hartClaims (s : State) (isMachine : Bool) (h : HartId) : State := if s.hartRuns h then s.modImsic isMachine h Imsic.claim else s

end State

end Sys2Proof.Machine
end

