-- ==== Sys2Proof/Machine/Registers.lean ====
section
/-!
DEFINITION. The register map: where an address leads (R452, R455), what every listed register reads (R460), writes of registers,
reads that clear a counter (R11), and accesses that fail (R42, R46, R459).
-/
namespace Sys2Proof.Machine

/-! ### Where an address leads -/

/-- Where a hart's access leads (R452, R453, R455): a register block of the service tree or an interrupt controller with the offset
in it, or a region of memory. `nowhere` lies in the window of the Ethernet ports beyond the last port and holds no register. -/
inductive Place where
  | tile (p : TileId) (off : Nat)
  | hst (off : Nat)
  | sec (off : Nat)
  | pwr (off : Nat)
  | hmn (off : Nat)
  | mesh (off : Nat)
  | rtu (off : Nat)
  | fab (off : Nat)
  | fabPlane (q : PlaneId) (off : Nat)
  | opt (q : PlaneId) (off : Nat)
  | cmb (off : Nat)
  | port (i : PortId) (off : Nat)
  | eth (p : EthId) (off : Nat)
  | ddr
  | tileSram (p : TileId) (off : Nat)
  | hostSram
  | bootRom
  | aplic (isMachine : Bool) (off : Nat)
  | imsic (isMachine : Bool) (hart off : Nat)
  | hole
  | nowhere
  deriving DecidableEq, Repr

def csrBase : Nat := 0x7E00_0000_0000
def blockBase : Nat := 0x7F00_0000_0000

/-- The block of a window offset (R455). -/
def blockPlace (w : Nat) : Place :=
  if w < 0x10_0000 then .hst w
  else if w < 0x20_0000 then .sec (w - 0x10_0000)
  else if w < 0x30_0000 then .pwr (w - 0x20_0000)
  else if w < 0x40_0000 then .hmn (w - 0x30_0000)
  else if w < 0x50_0000 then .mesh (w - 0x40_0000)
  else if w < 0x60_0000 then .rtu (w - 0x50_0000)
  else if w < 0x70_0000 then .fab (w - 0x60_0000)
  else if 0x100_0000 ≤ w ∧ w < 0x110_0000 then .fabPlane (Fin.ofNat 16 ((w - 0x100_0000) / 0x1_0000)) (w % 0x1_0000)
  else if 0x200_0000 ≤ w ∧ w < 0x210_0000 then .opt (Fin.ofNat 16 ((w - 0x200_0000) / 0x1_0000)) (w % 0x1_0000)
  else if 0x280_0000 ≤ w ∧ w < 0x281_0000 then .cmb (w - 0x280_0000)
  else if 0x400_0000 ≤ w ∧ w < 0x440_0000 then .port (Fin.ofNat 64 ((w - 0x400_0000) / 0x1_0000)) (w % 0x1_0000)
  else if 0x600_0000 ≤ w ∧ w < 0x600_5000 then .eth (Fin.ofNat 5 ((w - 0x600_0000) / 0x1000)) (w % 0x1000)
  else if 0x600_5000 ≤ w ∧ w < 0x601_0000 then .nowhere
  else .hole

/-- The host-private region (R453). -/
def privatePlace (w : Nat) : Place :=
  if w < 0x4_0000 then .bootRom
  else if 0xC00_0000 ≤ w ∧ w < 0xC00_4000 then .aplic true (w - 0xC00_0000)
  else if 0xD00_0000 ≤ w ∧ w < 0xD00_4000 then .aplic false (w - 0xD00_0000)
  else if 0x2400_0000 ≤ w ∧ w < 0x2401_0000 then .imsic true ((w - 0x2400_0000) / 0x1000) (w % 0x1000)
  else if 0x2800_0000 ≤ w ∧ w < 0x2801_0000 then .imsic false ((w - 0x2800_0000) / 0x1000) (w % 0x1000)
  else if 0x8000_0000 ≤ w ∧ w < 0x8400_0000 then .hostSram
  else .hole

/-- Where a physical address leads (R452, R453, R455). -/
def placeOf (part : Part) (a : Nat) : Place :=
  if a < part.ddrEnd then .ddr
  else if sramBase 0 ≤ a ∧ a < sramBase 1152 then .tileSram (Fin.ofNat 1152 ((a - sramBase 0) / 0x400_0000)) (a % 0x400_0000)
  else if csrBase ≤ a ∧ a < csrBase + 1152 * 0x1_0000 then .tile (Fin.ofNat 1152 ((a - csrBase) / 0x1_0000)) (a % 0x1_0000)
  else if blockBase ≤ a ∧ a < blockBase + 0x601_0000 then blockPlace (a - blockBase)
  else if 0x7FF0_0000_0000 ≤ a ∧ a < 0x7FF1_0000_0000 then privatePlace (a - 0x7FF0_0000_0000)
  else .hole

/-! ### Reads (R460) -/

/-- A register word: fields by their lowest bit. -/
def pack (l : List (Nat × Nat)) : W32 := BitVec.ofNat 32 (l.foldl (fun n x => n + x.2 * 2 ^ x.1) 0)

def boolMask (l : List Bool) : Nat := (l.zipIdx.map fun x => if x.1 then 2 ^ x.2 else 0).foldl (· + ·) 0

/-- Word `j` of a string of bytes. -/
def wordAt (l : List Byte) (j : Nat) : W32 := BitVec.ofNat 32 (leNat ((l.drop (4 * j)).take 4))

/-- The low and the high half of a 64-bit value, at offsets 0 and 4. -/
def halfAt (v : Nat) (hi : Bool) : W32 := BitVec.ofNat 32 (if hi then v / 2 ^ 32 else v)

/-- Word n of an array of words at `base`, where the offset falls in it. -/
def inArray (off base n : Nat) : Option Nat := if base ≤ off ∧ off < base + 4 * n then some ((off - base) / 4) else none

def SeqState.code : SeqState → Nat
  | .idle => 0
  | .issuing => 1
  | .inWaitt => 2
  | .atMark => 3
  | .halted => 4
  | .faulted => 5
  | .drained => 6

def Phase.code : Phase → Nat
  | .idle => 0
  | .stepping => 1
  | .arrived => 2
  | .gateClear => 3
  | .gateVetoed => 4
  | .evaluating => 5
  | .restoring => 6

def faultWord (x : FaultRec) : W32 := pack [(0, x.cause.toNat), (8, x.hardware.toNat), (31, x.valid.toNat)]

/-- The 64 bytes of an entry of the measurement log (R406). -/
def LogEntry.bytes (e : LogEntry) : List Byte :=
  [BitVec.ofNat 8 e.index, if e.extend then 1 else 0, 0, 0] ++ leBytes e.seq.toNat 4 ++ List.replicate 8 0 ++ e.digest

/-- A port's pair number: of the planes on which a pair reaches the peer, the pair number met most often, the lowest on a tie
(R319). -/
def mostUsed (l : List Nat) : Nat :=
  (List.range 32).foldl (fun b c => if (l.filter (· == b)).length < (l.filter (· == c)).length then c else b) 0

/-- A turned COPY holds the turn buffer. -/
def Tile.turnCopy (t : Tile) : Bool := t.rslots.toList.any fun x => match x with
  | some x => x.turned
  | none => false

namespace State

/-- A register of a tile's CSR block. Engine queues, the arrays, the vector engine and the turn buffer are never seen busy: the
work of an instruction is done at its issue (log 12). (DEDUCED, log 22, 50, 90). -/
def readTile (s : State) (p : TileId) (off : Nat) : W32 :=
  let t := s.tile p
  match inArray off 0x100 64 with
  | some k => t.tallies.getD k 0
  | none =>
    match off with
    | 0x000 => pack [(0, p.1), (11, s.logicalOf p), (22, rowOf p / 9 * 4 + colOf p / 8)]
    | 0x004 => pack [(0, rowOf p), (8, colOf p), (16, (isEdge p).toNat)]
    | 0x008 =>
      let d (x : Dir) : Nat :=
        if !s.l2p.isEmpty && detourValid s.mesh.prune p x then 1 + 2 * (detourSide s.mesh.prune p x).toNat else 0
      pack [(0, d .east), (2, d .west), (4, d .north), (6, d .south)]
    | 0x010 => pack [(0, t.state.code), (4, if t.state = .inWaitt then t.waitT.toNat else 0)]
    | 0x014 => halfAt t.pc.toNat false
    | 0x018 => halfAt (t.pc.toNat % 2 ^ 48) true
    | 0x01C => pack [(16, min 16 (s.portQueue p)), (24, min 16 t.smemQueue)]
    | 0x020 => faultWord t.fault
    | 0x024 => halfAt t.fault.pc.toNat false
    | 0x028 => halfAt t.fault.pc.toNat true
    | 0x02C => halfAt t.fault.insn.toNat false
    | 0x030 => halfAt t.fault.insn.toNat true
    | 0x040 => match t.held[0]? with
      | some h => pack [(0, h.list.toNat), (31, 1)]
      | none => 0
    | 0x044 => match t.held[0]? with
      | some h => h.index
      | none => 0
    | 0x048 => match t.held[1]? with
      | some h => pack [(0, h.list.toNat), (31, 1)]
      | none => 0
    | 0x04C => match t.held[1]? with
      | some h => h.index
      | none => 0
    | 0x050 => t.issued
    | 0x054 => t.wait
    | 0x058 => t.qfull
    | 0x05C => t.enter
    | 0x400 => pack [(2, t.stationary.isSome.toNat), (3, t.adapter.isSome.toNat)]
    | 0x404 => t.arr.freeze
    | 0x408 => t.arr.sat
    | 0x40C => t.arr.nannum
    | 0x410 => t.arr.nonfin
    | 0x414 => t.arr.rows
    | 0x500 => pack [(0, t.turnCopy.toNat)]
    | 0x504 => t.turnWait
    | 0x600 => 0
    | 0x604 => t.vec.invalid
    | 0x608 => t.vec.divzero
    | 0x60C => t.vec.sat
    | 0x610 => t.vec.nannum
    | 0x614 => t.vec.nonfin
    | 0x618 => t.vec.stall
    | 0x61C => t.vec.genWrap
    | 0x640 => pack [(0, t.genSel.toNat)]
    | 0x644 => halfAt (t.lanes.getD t.genSel.toNat .reset).key.toNat false
    | 0x648 => halfAt (t.lanes.getD t.genSel.toNat .reset).key.toNat true
    | 0x64C => (t.lanes.getD t.genSel.toNat .reset).c0
    | 0x650 => (t.lanes.getD t.genSel.toNat .reset).c1
    | 0x654 => (t.lanes.getD t.genSel.toNat .reset).c2
    | 0x658 => (t.lanes.getD t.genSel.toNat .reset).c3
    | 0x700 =>
      let w := t.wslots.toList
      pack [(0, boolMask (t.rslots.toList.map Option.isSome)), (8, boolMask (w.map (· != .idle))),
            (16, boolMask (w.map fun x => match x with
              | .fabric _ => true
              | _ => false)),
            (24, t.turnCopy.toNat)]
    | 0x704 => pack [(0, boolMask (t.handles.toList.map (·.desc.isSome))), (16, boolMask (t.handles.toList.map (·.half)))]
    | 0x708 => t.strm.rearm
    | 0x70C => t.strm.pairwait
    | 0x710 => t.strm.racc
    | 0x714 => t.strm.wacc
    | 0x720 => pack [(0, t.strm.errHandle.toNat), (4, t.strm.errDim.toNat), (8, t.strm.errCause.toNat),
                     (31, t.strm.errValid.toNat)]
    | 0x800 => pack [(1, t.rtf.layer.toNat)]
    | 0x804 => t.rtf.tokens
    | 0x808 => t.rtf.nonfin
    | 0x900 => pack [(0, t.therm.tj.toNat), (16, t.therm.lTherm.toNat), (21, s.lEff p), (26, t.therm.slope.toNat),
                     (27, t.therm.trip.toNat)]
    | 0x904 => t.therm.hold
    | 0x908 => t.therm.stretch
    -- the clocks over the last 1 ms are measurements: free values once the mesh is open (log 90)
    | 0x90C =>
      let f := (Config.freeValue s.freeCtr).toNat
      if s.meshOpen then pack [(0, f % 4096), (16, f / 4096 % 4096)] else 0
    | _ => 0

def readHst (s : State) (off : Nat) : W32 :=
  let l := s.launch
  let b := s.boot
  match inArray off 0x1100 64 with
  | some k => s.hostTallies.getD k 0
  | none =>
    match off with
    | 0x000 => pack [(0, 0x3142), (16, match s.part.mem with
        | .c04T => 0
        | .c08T => 1
        | .c16T => 2), (18, (s.part.grade == .b).toNat)]
    | 0x004 => pack [(0, b.fwSlot.toNat), (1, b.fwFallback.toNat), (2, b.cfgSlot.toNat), (3, b.cfgFallback.toNat),
                     (4, b.cfgNone.toNat), (5, b.bootFail.toNat)]
    | 0x008 => b.fwSeq
    | 0x00C => pack [(0, b.fwSvn.toNat), (8, s.nv.minSvn.toNat)]
    | 0x010 => b.cfgSeq
    | 0x018 => pack [(0, b.flashOff.toNat)]
    | 0x01C => pack [(0, b.flashLen.toNat)]
    | 0x020 => halfAt b.flashSrc.toNat false
    | 0x024 => halfAt b.flashSrc.toNat true
    | 0x028 => pack [(0, b.flashBusy.toNat), (1, b.flashDone.toNat), (2, b.flashErr.toNat)]
    | 0x1004 => pack [(0, l.run.toNat), (1, l.st.toNat), (8, l.refuse.toNat), (16, l.endCode.toNat), (19, l.doneIrq.toNat),
                      (20, l.endIrq.toNat), (21, l.writeWhileRun.toNat), (22, l.cancelSeen.toNat)]
    | 0x1008 => halfAt l.entry.toNat false
    | 0x100C => halfAt l.entry.toNat true
    | 0x1010 => halfAt l.param.toNat false
    | 0x1014 => halfAt l.param.toNat true
    | 0x1018 => pack [(0, l.first.toNat), (16, l.count.toNat)]
    | 0x101C => pack [(0, l.doneTally.toNat)]
    | 0x1020 => l.doneCount
    | 0x1024 => pack [(0, l.faultTile.toNat), (16, l.faultCause.toNat), (24, l.faultHardware.toNat), (31, l.faultValid.toNat)]
    | 0x1028 => l.seq
    | 0x1034 => l.revokeBound
    | 0x1038 => l.revokeResult
    | 0x103C => pack [(0, l.revokeBusy.toNat), (1, l.revokeErr.toNat), (2, l.revokeDone.toNat)]
    | _ => 0

def readSec (s : State) (off : Nat) : W32 :=
  let x := s.sec
  match inArray off 0x20 12, inArray off 0x4_0000 12, inArray off 0x4_0100 0x1_0000 with
  | some j, _, _ => wordAt ownFpr j
  | _, some j, _ => if 1 ≤ x.measSel.toNat ∧ x.measSel.toNat ≤ 10 then wordAt (s.measurement x.measSel.toNat) j else 0
  | _, _, some k => match x.log[k / 16]? with
    | some e => wordAt e.bytes (k % 16)
    | none => 0
  | none, none, none =>
    match off with
    | 0x04 => halfAt x.addr.toNat false
    | 0x08 => halfAt x.addr.toNat true
    | 0x0C => pack [(0, x.busy.toNat), (1, s.nv.owner.isSome.toNat), (2, x.logFull.toNat), (3, s.nv.debugLock.toNat), (4, x.reason.toNat)]
    | 0x10 => pack [(0, x.event.toNat)]
    | 0x14 => halfAt x.nonce.toNat false
    | 0x18 => halfAt x.nonce.toNat true
    | 0x1C => pack [(0, x.log.length)]
    | 0x50 => pack [(0, x.measSel.toNat)]
    | _ => 0

/-- Rests on a choice of the model (DEDUCED, log 49). -/
def readPwr (s : State) (off : Nat) : W32 :=
  let x := s.power
  match inArray off 0x20 5, inArray off 0x100 64 with
  | some j, _ => pack [(0, (x.blocks.getD j 0).toNat)]
  | _, some i => pack [(0, (x.dimmT.getD i 0).toNat)]
  | none, none =>
    match off with
    | 0x00 => pack [(0, s.standby.pg.toNat), (1, (decide (x.lMod.toNat < 16)).toNat), (2, x.lMod.toNat), (7, x.vinState.toNat),
                    (9, x.coolState.toNat), (11, s.thermLow.toNat), (12, s.alertLow.toNat), (13, x.shutdown.toNat)]
    | 0x04 => pack [(0, x.event.toNat)]
    | 0x08 => pack [(0, x.vin.toNat)]
    | 0x0C => pack [(0, x.iin.toNat)]
    | 0x10 => pack [(0, x.pin.toNat)]
    | 0x14 => pack [(0, x.cap.toNat)]
    | 0x18 => pack [(0, x.capEff.toNat), (16, x.limitBy.toNat)]
    | 0x40 => pack [(0, x.mainInlet.toNat), (16, x.mainFlow.toNat)]
    | 0x44 => pack [(0, x.optInlet.toNat), (16, x.optFlow.toNat)]
    | 0x48 => pack [(0, s.hottest.2.toNat), (16, s.hottest.1)]
    | 0x4C => x.stretch
    | 0x50 => x.throttle
    | 0x54 => x.warnCount
    | _ => 0

/-- Sealed bytes held for peers in a slot index, in units of 64 MiB. -/
def heldUnits (s : State) (j : Nat) : Nat :=
  wholeReading (((s.steps.held.filter fun x => x.isSealed && x.seq.toNat % 2 == j).map (·.bytes.length)).foldl (· + ·) 0) (2 ^ 26)

/-- Rests on a choice of the model (DEDUCED, log 49). -/
def readSlot (s : State) (j off : Nat) : W32 :=
  let x := s.steps.slots.getD j .empty
  match off with
  | 0 => x.seq
  | 1 => pack [(0, x.state.toNat)]
  | 2 => x.t
  | _ => pack [(0, s.heldUnits j)]

def readHmn (s : State) (off : Nat) : W32 :=
  let h := s.health
  let x := s.steps
  match inArray off 0x40 12, inArray off 0x80 12, inArray off 0xC0 12, inArray off 0x100 192, inArray off 0x420 8 with
  | some i, _, _, _, _ => pack [(0, (h.inputs.getD i 0).toNat)]
  | _, some i, _, _, _ => pack [(0, (h.r.getD i 0).toNat)]
  | _, _, some i, _, _ => pack [(0, (h.w.getD i 0).toNat)]
  | _, _, _, some k, _ => h.curve.getD k 0
  | _, _, _, _, some k => s.readSlot (k / 4) (k % 4)
  | none, none, none, none, none =>
    match off with
    | 0x000 => pack [(0, h.run.toNat)]
    | 0x004 => pack [(0, h.state.toNat), (8, h.risk.toNat), (20, h.worst.toNat)]
    | 0x008 => pack [(0, h.event.toNat)]
    | 0x00C => h.smA
    | 0x010 => h.smB
    | 0x014 => h.smC
    | 0x400 => x.t
    | 0x404 => x.a
    | 0x408 => pack [(0, x.phase.code), (3, x.nf.toNat), (4, x.digest.toNat)]
    | 0x40C => pack [(0, boolMask ((List.range 32).map fun r => x.msgs.any fun m => m.src.toNat == r && m.k == x.k))]
    | 0x410 => x.nfMask
    | 0x450 => x.restoreSeq
    | 0x454 => pack [(0, x.restoreCause.toNat), (4, x.restoreDigest.toNat)]
    | 0x460 => pack [(0, x.digestSel.toNat)]
    | 0x464 => halfAt (x.digests.getD x.digestSel.toNat 0).toNat false
    | 0x468 => halfAt (x.digests.getD x.digestSel.toNat 0).toNat true
    | _ => 0

def readMesh (s : State) (off : Nat) : W32 :=
  let x := s.mesh
  match inArray off 0x100 36, inArray off 0x200 36, inArray off 0x300 36, inArray off 0x400 36, inArray off 0x500 8,
      inArray off 0x1000 1152 with
  | some r, _, _, _, _, _ => x.prune.extractLsb' (32 * r) 32
  | _, some r, _, _, _, _ => s.nv.fuse.extractLsb' (32 * r) 32
  | _, _, some r, _, _, _ => x.field.extractLsb' (32 * r) 32
  | _, _, _, some r, _, _ => x.bist.extractLsb' (32 * r) 32
  | _, _, _, _, some j, _ => match x.suspects[j]? with
    | some p => pack [(0, p.1), (31, 1)]
    | none => 0
  | _, _, _, _, _, some n => match s.l2p[n]? with
    | some p => pack [(0, p.1), (31, 1)]
    | none => 0
  | none, none, none, none, none, none =>
    match off with
    | 0x00 => pack [(0, s.l2p.length), (11, s.meshOpen.toNat), (12, x.belowFloor.toNat), (13, x.edgeFail.toNat),
                    (14, x.fieldMapLost.toNat), (15, x.fieldCopy.toNat), (16, x.fieldWriteFail.toNat),
                    (17, x.write.isSome.toNat), (18, x.tileFault.toNat), (24, x.sacrificed.toNat)]
    | 0x04 => x.fieldSeq
    | 0x20 => pack [(0, x.svcTile.toNat), (12, x.svcCause.toNat), (16, x.svcCount.toNat), (31, x.svcValid.toNat)]
    | _ => 0

def readRtu (s : State) (off : Nat) : W32 :=
  let x := s.rtu
  match off with
  | 0x00 => pack [(1, min 16 x.calls.length), (6, x.stepSat.toNat)]
  | 0x04 => x.done
  | 0x08 => x.choices
  | 0x0C => x.nulls
  | 0x10 => x.skips
  | 0x14 => x.evcalls
  | 0x20 => pack [(0, x.errTile.toNat), (16, x.errCause.toNat), (31, x.errValid.toNat)]
  | 0x30 => pack [(0, x.loopLayers.toNat)]
  | _ => 0

/-- The planes that reach some peer by another pair than most planes do (R319). -/
def skewMask (s : State) : Nat :=
  boolMask (allPlanes.map fun q => (List.range s.fabric.peers.length).any fun k =>
    let l := s.pairsTo k
    let c := mostUsed (l.map (·.2.1))
    l.any fun x => x.1 == q && x.2.1 != c)

/-- The peers with no record in the plan of the running launch (R328). (DEDUCED, log 50). -/
def surplus (s : State) : List (List Byte) := match s.fabric.job with
  | some j => s.fabric.peers.filter fun f =>
      !(s.pairsOf f).isEmpty && !((List.range (Plan.nmod j.plan)).any fun r => Plan.fpr j.plan r == f)
  | none => []

/-- FAB_PEER_INFO of a peer-table entry. -/
def peerInfo (s : State) (k : Nat) : W32 :=
  match s.fabric.peers[k]? with
  | none => 0
  | some fpr =>
    let l := s.pairsTo k
    let auth := !l.isEmpty && l.all fun x => (s.mapEntry x.1 x.2).auth
    let base := [(0, min l.length 16), (5, auth.toNat)]
    match s.fabric.job with
    | none => pack base
    | some j =>
      let rec? := (List.range (Plan.nmod j.plan)).find? fun r => Plan.fpr j.plan r == fpr
      let rank := rec?.bind j.jobRank
      pack (base ++ [(6, rank.isSome.toNat), (7, rank.getD 0),
        (12, (match rec? with
          | some r => decide (Plan.nmemb j.plan ≤ r)
          | none => false).toNat), (13, (rec?.isNone && !l.isEmpty).toNat)])

/-- Rests on a choice of the model (DEDUCED, log 50). -/
def readFab (s : State) (off : Nat) : W32 :=
  let x := s.fabric
  let joined := match x.job with
    | some j => j.joined
    | none => false
  let mask : W32 := match x.job with
    | some j => j.j.getD 0
    | none => 0
  match off with
  | 0x00 => pack [(0, (x.mapReady && s.mapComplete).toNat), (1, (s.skewMask != 0).toNat), (2, x.mapConflict.toNat), (3, joined.toNat),
                  (4, (match x.job with
                    | some j => j.copy1
                    | none => false).toNat), (6, x.peers.length), (12, (maskRanks mask).length),
                  (18, match x.job with
                    | some j => j.ownRank
                    | none => 0)]
  | 0x04 => pack [(0, x.planErrSub.toNat), (4, x.planErrRecord.toNat), (31, x.planErrValid.toNat)]
  | 0x08 => pack [(0, s.skewMask)]
  | 0x0C => mask
  | 0x10 => pack [(0, s.surplus.length)]
  | 0x20 => x.discard
  | 0x24 => x.noroute
  | 0x28 => x.resent
  | 0x2C => x.rimOwn
  | 0x30 => x.rimForeign
  | 0x40 => pack [(0, x.peerSel.toNat)]
  | 0x44 => wordAt (x.peers.getD x.peerSel.toNat []) 0
  | 0x48 => wordAt (x.peers.getD x.peerSel.toNat []) 1
  | 0x4C => s.peerInfo x.peerSel.toNat
  | _ => 0

def readFabPlane (s : State) (q : PlaneId) (off : Nat) : W32 :=
  match inArray off 0 32 with
  | some c =>
    let m := s.mapEntry q (Fin.ofNat 32 c)
    pack [(0, if m.valid then m.peer else 0), (6, m.valid.toNat), (7, m.conflict.toNat)]
  | none =>
    match off with
    | 0x80 => s.fabric.txFrames[q]
    | 0x84 => s.fabric.rxFrames[q]
    | 0x88 => s.fabric.relayed[q]
    | _ => 0

def readOpt (s : State) (q : PlaneId) (off : Nat) : W32 :=
  let x := s.plane q
  let y := s.pair q x.pairSel
  let mask (st : PairState) : W32 := pack [(0, boolMask (allPairs.map fun c => (s.pair q c).state == st))]
  match inArray off 0x100 16 with
  | some n => x.tune.getD n 0
  | none =>
    match off with
    | 0x00 => pack [(0, x.run.toNat), (1, x.ffEn.toNat)]
    | 0x04 => mask .up
    | 0x08 => mask .hold
    | 0x0C => mask .out
    | 0x10 => pack [(0, x.event.toNat)]
    | 0x14 => pack [(0, x.lockErrMax.toNat), (16, x.slewMax.toNat)]
    | 0x18 => pack [(0, x.dieTemp.toNat)]
    | 0x20 => pack [(0, x.pairSel.1)]
    | 0x24 => pack [(0, y.state.code), (3, y.peerRx.toNat), (5, y.holdCause.toNat), (7, y.outMargin.toNat),
                    (8, y.margin.toNat), (16, y.peerMargin.toNat)]
    | 0x28 => y.testErr
    | 0x2C => y.fecCorr
    | 0x30 => y.fecUnc
    | 0x34 => y.crcErr
    | 0x38 => y.replayed
    | 0x3C => pack [(0, y.tx.heater.toNat), (16, y.rx.heater.toNat)]
    | 0x140 => pack [(0, x.tuneN.toNat)]
    | 0x144 => y.holds
    | _ => 0

def readCmb (s : State) (off : Nat) : W32 :=
  let x := s.light.combs
  match inArray off 0x100 32, inArray off 0x180 32 with
  | some c, _ => pack [(0, (x.power.getD c 0).toNat), (16, (x.ref.getD c 0).toNat)]
  | _, some c => pack [(0, (x.margin.getD c 0xFF).toNat)]
  | none, none =>
    match off with
    | 0x4 => pack [(0, x.active.toNat), (1, x.a.code), (4, x.b.code), (7, x.combNone.toNat), (8, x.marginMin.toNat),
                   (16, x.worstLine.1), (24, x.switches.toNat)]
    | 0x8 => pack [(0, x.event.toNat)]
    | _ => 0

/-- A port's registers. No request is outstanding between two commands; LOAD, a share of time, is a free value (log 13).
(DEDUCED, log 51). -/
def readPort (s : State) (i : PortId) (off : Nat) : W32 :=
  let x := s.port i.1
  let restoring := s.steps.phase == .gateVetoed && s.steps.stash.any fun e => e.channel == i.1
  match off with
  | 0x000 => pack [(0, i.1), (6, (decide (32 ≤ i.1)).toNat), (8, match s.part.mem with
      | .c04T => 0
      | .c08T => 1
      | .c16T => 2), (10, (s.part.grade == .b).toNat)]
  | 0x004 => pack [(0, x.trained.toNat), (1, x.trainFail.toNat), (2, x.retrain.toNat), (3, x.rank.toNat)]
  | 0x008 => pack [(0, (Config.freeValue s.freeCtr).toNat % 101), (16, x.resident.length)]
  | 0x00C => x.ce
  | 0x010 => pack [(0, x.ceDev.toNat), (4, x.ceRank.toNat)]
  | 0x014 => x.ue
  | 0x018 => halfAt x.ueAddr.toNat false
  | 0x01C => halfAt x.ueAddr.toNat true ||| pack [(31, x.ueValid.toNat)]
  | 0x020 => pack [(0, (s.poisoned.filter fun l => channelOf (64 * l) == i.1).length)]
  | 0x024 => x.retrains
  | 0x028 => pack [(0, x.mergeErr.toNat)]
  | 0x02C => halfAt x.mergeAddr.toNat false
  | 0x030 => halfAt x.mergeAddr.toNat true
  | 0x100 => 0
  | 0x104 => x.gplRows
  | 0x108 => x.gplOor
  | 0x10C => x.gplBags
  | 0x200 =>
    let mine := s.engineUnits i.1
    pack [(0, (mine.any fun u => !u.checked).toNat), (1, (mine.any (·.checked)).toNat), (2, restoring.toNat)]
  | 0x204 => x.updUnits
  | 0x208 => x.updCatchup
  | 0x20C => x.updStashed
  | 0x210 => x.updNonfin
  | 0x214 => x.updRestored
  | 0x218 => x.updStamperr
  | _ => 0

/-- Which ring a port offset falls in, and the offset within its registers. -/
def ringAt (off : Nat) : Option (Fin 9 × Nat) :=
  if 0x100 ≤ off ∧ off < 0x300 then some (Fin.ofNat 9 ((off - 0x100) / 0x40), off % 0x40)
  else if 0x300 ≤ off ∧ off < 0x340 then some (txRing, off % 0x40)
  else none

def readEth (s : State) (p : EthId) (off : Nat) : W32 :=
  let x := s.ethPort p
  match ringAt off with
  | some (r, o) =>
    let y := s.ring p r
    if !hasRing p r then 0
    else match o with
      | 0x00 => halfAt y.base.toNat false
      | 0x04 => halfAt y.base.toNat true
      | 0x08 => pack [(0, y.size.toNat)]
      | 0x0C => pack [(0, y.head.toNat)]
      | 0x10 => pack [(0, y.tail.toNat)]
      | 0x14 => halfAt y.pos.toNat false
      | 0x18 => halfAt y.pos.toNat true
      | 0x1C => y.sig
      | 0x20 => pack [(0, y.every.toNat)]
      | 0x24 => halfAt y.sigAddr.toNat false
      | 0x28 => halfAt y.sigAddr.toNat true
      | _ => 0
  | none =>
    match off with
    | 0x00 => pack [(0, x.run.toNat), (1, x.pfcEn.toNat), (9, x.fec.toNat)]
    | 0x04 => pack [(0, x.link.toNat), (1, x.present.toNat)]
    | 0x08 => pack [(0, x.event.toNat)]
    | 0x0C => halfAt (Config.macBase.toNat + p.1) false
    | 0x10 => halfAt ((Config.macBase.toNat + p.1) % 2 ^ 48) true
    | 0x20 => x.rxFrames
    | 0x24 => x.rxFcs
    | 0x28 => x.rxNobuf
    | 0x2C => x.txFrames
    | 0x30 => x.fecCorr
    | 0x34 => x.fecUnc
    | 0x38 => x.sigLost
    | _ => 0

/-- What the register at a 4-aligned address reads (R460); an offset that is not listed, and the block of a pruned tile, read zero
(R46, R459). The effect of reading a register that a read clears is its command's. -/
def readRegister (s : State) (a : Nat) : W32 :=
  if a % 4 ≠ 0 then 0
  else match placeOf s.part a with
  | .tile p off => if s.pruned p then 0 else s.readTile p off
  | .hst off => s.readHst off
  | .sec off => s.readSec off
  | .pwr off => s.readPwr off
  | .hmn off => s.readHmn off
  | .mesh off => s.readMesh off
  | .rtu off => s.readRtu off
  | .fab off => s.readFab off
  | .fabPlane q off => s.readFabPlane q off
  | .opt q off => s.readOpt q off
  | .cmb off => s.readCmb off
  | .port i off => s.readPort i off
  | .eth p off => s.readEth p off
  | .aplic m off => (s.irq.domain m).read m off
  | .imsic .. => 0
  | .ddr => 0
  | .tileSram .. => 0
  | .hostSram => 0
  | .bootRom => 0
  | .hole => 0
  | .nowhere => 0

end State

/-! ### Accesses of a hart (R394, R454, R456, R459) -/

/-- Why an access of a hart fails, if it does: a pruned tile, or the reserved part of an active tile's SRAM window.
(DEDUCED, log 20). -/
def failure (s : State) (a : Nat) : Option (TileId × BitVec 3) :=
  match placeOf s.part a with
  | .tileSram p off => if s.pruned p then some (p, 1) else if 0x280_0000 ≤ off then some (p, 4) else none
  | .tile p _ => if s.pruned p then some (p, 1) else none
  | _ => none

namespace State

/-- An access of n bytes at an address that a hart may make; any other takes an access fault at the hart, and nothing reaches the
device (R456). `amo` is an AMO or LR/SC. While the DIMMs are in self-refresh none of them answers (R431). (DESIGN CHOICE, log 109). -/
def hartMay (s : State) (a n : Nat) (isWrite amo : Bool) : Bool :=
  match placeOf s.part a with
  | .ddr => s.inDdr a n && !s.power.shutdown
  | .hostSram => placeOf s.part (a + n - 1) == .hostSram
  | .tileSram .. => !amo && (n == 1 || n == 2 || n == 4 || n == 8) && a % n == 0
  | .bootRom => !isWrite && !amo && placeOf s.part (a + n - 1) == .bootRom
  | .hole => false
  | _ => !amo && n == 4 && a % 4 == 0

/-- A load of n bytes by hart h: none for a load access fault and for a hart in reset (R393), else the bytes and the state with a failure recorded (R42, R46,
R459). DDR is read through the caches (R394), tile SRAM only while the islands are not gated (R431); the boot ROM's contents are
free. The effect of reading a register that a read clears is its command's. (DESIGN CHOICE, log 109). -/
def hartLoad (s : State) (h : HartId) (a n : Nat) (amo : Bool) : Option (List Byte × State) :=
  if !s.hartRuns h || !s.hartMay a n false amo then none
  else match failure s a with
    | some (p, c) => some (List.replicate n 0#8, s.svcError p.1 c)
    | none => match placeOf s.part a with
      | .ddr => some (s.cacheLoad a n)
      | .hostSram => some ((List.range n).map fun i => s.peek (a + i), s)
      | .tileSram p off =>
        some (if s.power.shutdown then List.replicate n 0#8 else (List.range n).map fun i => s.peek (sramBase p.1 + off + i), s)
      | .bootRom => some ((List.range n).map fun i => Config.romByte (a - 0x7FF0_0000_0000 + i), s)
      | _ => some (leBytes (s.readRegister a).toNat 4, s)

end State

/-! ### Writes (R11, R12, R14) -/

/-- Replace the low or the high half of a 48-bit register. -/
def setLo (a : BitVec 48) (v : W32) : BitVec 48 := (a.extractLsb' 32 16) ++ v
def setHi (a : BitVec 48) (v : W32) : BitVec 48 := (v.extractLsb' 0 16) ++ (a.extractLsb' 0 32)

namespace State

/-- A launch setting: ignored and flagged while RUN = 1 (R143). -/
def setLaunch (s : State) (f : LaunchRegs → LaunchRegs) : State :=
  if s.launch.run then s.modLaunch fun l => { l with writeWhileRun := true } else s.modLaunch f

/-- A curve, a weight or a threshold of the health monitor (R375). -/
def setHealth (s : State) (f : Health → Health) : State :=
  if s.health.run then s.hmnEvent hmnWriteWhileRun else { s with health := f s.health }

/-- A setting of a ring (R413). -/
def setRing (s : State) (p : EthId) (r : Fin 9) (f : Ring → Ring) : State :=
  if (s.ethPort p).run then s.ethEvent p 3 else s.modRing p r f

end State

/-- A write of a tile register. -/
def writeTile (s : State) (p : TileId) (off : Nat) (v : W32) : Host.Outcome State Fault Refusal :=
  if off = 0x060 then execTleSignalWrite p v s
  else if s.pruned p then .next (s.svcError p.1 1)
  else if off = 0x640 then .next (s.modTile p fun t => { t with genSel := v.truncate 6 })
  else .next s

/-- Rests on a choice of the model (DEDUCED, log 47). -/
def writeHst (s : State) (off : Nat) (v : W32) : Host.Outcome State Fault Refusal :=
  let boot (f : Boot → Boot) : Host.Outcome State Fault Refusal := .next { s with boot := f s.boot }
  match inArray off 0x1100 64 with
  | some n => execHstTallyWrite (Fin.ofNat 64 n) v s
  | none =>
    match off with
    | 0x014 => if v.getLsbD 1 then execEraseOnly s else if v.getLsbD 0 then execFlashGo s else .next s
    | 0x018 => boot fun b => { b with flashOff := v.truncate 28 }
    | 0x01C => boot fun b => { b with flashLen := v.truncate 28 }
    | 0x020 => boot fun b => { b with flashSrc := setLo b.flashSrc v }
    | 0x024 => boot fun b => { b with flashSrc := setHi b.flashSrc v }
    | 0x028 => execHstFlashStatusClear v s
    | 0x1000 => .next (s.writeLaunchCtl (v.getLsbD 0) (v.getLsbD 1))
    | 0x1004 => execHstLaunchStatusClear v s
    | 0x1008 => .next (s.setLaunch fun l => { l with entry := setLo l.entry v })
    | 0x100C => .next (s.setLaunch fun l => { l with entry := setHi l.entry v })
    | 0x1010 => .next (s.setLaunch fun l => { l with param := setLo l.param v })
    | 0x1014 => .next (s.setLaunch fun l => { l with param := setHi l.param v })
    | 0x1018 => .next (s.setLaunch fun l => { l with first := v.extractLsb' 0 11, count := v.extractLsb' 16 11 })
    | 0x101C => .next (s.setLaunch fun l => { l with doneTally := v.truncate 6 })
    | 0x1020 => .next (s.setLaunch fun l => { l with doneCount := v })
    | 0x1030 => execHstRevokeGo v s
    | 0x1034 => .next (s.modLaunch fun l => { l with revokeBound := v })
    | 0x103C => execHstRevokeStatusClear v s
    | _ => .next s

def writeSec (s : State) (off : Nat) (v : W32) : Host.Outcome State Fault Refusal :=
  match off with
  | 0x00 => .next (s.writeSecCtl v)
  | 0x04 => .next (s.modSec fun x => { x with addr := setLo x.addr v })
  | 0x08 => .next (s.modSec fun x => { x with addr := setHi x.addr v })
  | 0x10 => execSecEventClear v s
  | 0x50 => .next (s.modSec fun x => { x with measSel := v.truncate 4 })
  | _ => .next s

def writeHmn (s : State) (off : Nat) (v : W32) : Host.Outcome State Fault Refusal :=
  match inArray off 0xC0 12, inArray off 0x100 192 with
  | some i, _ => .next (s.setHealth fun h => { h with w := h.w.setIfInBounds i (v.truncate 8) })
  | _, some k => .next (s.setHealth fun h => { h with curve := h.curve.setIfInBounds k (v &&& 0x03FF_FFFF) })
  | none, none =>
    match off with
    | 0x000 => execHmnRun v s
    | 0x008 => execHmnEventClear v s
    | 0x00C => .next (s.setHealth fun h => { h with smA := v &&& 0x03FF_03FF })
    | 0x010 => .next (s.setHealth fun h => { h with smB := v &&& 0xFF0F_03FF })
    | 0x014 => .next (s.setHealth fun h => { h with smC := v &&& 0xFFFF })
    | 0x460 => .next { s with steps := { s.steps with digestSel := v.truncate 12 } }
    | _ => .next s

def writeOpt (s : State) (q : PlaneId) (off : Nat) (v : W32) : Host.Outcome State Fault Refusal :=
  match inArray off 0x100 16 with
  | some n => .next (s.tuneWrite q fun x => { x with tune := x.tune.setIfInBounds n v })
  | none =>
    match off with
    | 0x00 => execOptRun q v s
    | 0x10 => execOptEventClear q v s
    | 0x20 => .next (s.modPlane q fun x => { x with pairSel := Fin.ofNat 32 (v.toNat % 32) })
    | 0x140 => .next (s.tuneWrite q fun x => { x with tuneN := v.truncate 5 })
    | _ => .next s

/-- CMB_CTL: FORCE_WARM, then FORCE_SWITCH. (DEDUCED, log 47). -/
def writeCmb (s : State) (off : Nat) (v : W32) : Host.Outcome State Fault Refusal :=
  match off with
  | 0x0 =>
    let warm := if v.getLsbD 0 then execForceWarm s else .next s
    match warm with
    | .next s => if v.getLsbD 1 then execForceSwitch s else .next s
    | o => o
  | 0x8 => execCmbEventClear v s
  | _ => .next s

def writeEth (s : State) (p : EthId) (off : Nat) (v : W32) : Host.Outcome State Fault Refusal :=
  match State.ringAt off with
  | some (r, o) =>
    if !hasRing p r then .next s
    else match o with
      | 0x00 => .next (s.setRing p r fun y => { y with base := setLo y.base v })
      | 0x04 => .next (s.setRing p r fun y => { y with base := setHi y.base v })
      | 0x08 => execRingSizeWrite p r v s
      | 0x10 => execRingTailWrite p r v s
      | 0x1C => .next (s.setRing p r fun y => { y with sig := v &&& 0x7FFFF })
      | 0x20 => .next (s.setRing p r fun y => { y with every := v.truncate 16 })
      | 0x24 => .next (s.setRing p r fun y => { y with sigAddr := setLo y.sigAddr v })
      | 0x28 => .next (s.setRing p r fun y => { y with sigAddr := setHi y.sigAddr v })
      | _ => .next s
  | none =>
    match off with
    | 0x00 => execEthRun p v s
    | 0x08 => execEthPEventClear p v s
    | _ => .next s

/-- A write of the register at a place. Reserved bits, read-only fields and offsets that are not listed are ignored (R11, R12,
R459); a register whose write has a command of its own acts as that command does. (DEDUCED, log 46). -/
def writePlace (x : Place) (v : W32) (s : State) : Host.Outcome State Fault Refusal :=
  match x with
  | .tile p off => writeTile s p off v
  | .hst off => writeHst s off v
  | .sec off => writeSec s off v
  | .pwr 0x04 => execPwrEventClear v s
  | .pwr 0x14 => execPwrCapWrite v s
  | .pwr _ => .next s
  | .hmn off => writeHmn s off v
  | .mesh 0x10 => execMeshPruneReq v s
  | .mesh 0x20 => execMeshSvcErrClear v s
  | .mesh _ => .next s
  | .rtu 0x20 => execRtuErrClear v s
  | .rtu _ => .next s
  | .fab 0x40 => .next (s.modFabric fun x => { x with peerSel := v.truncate 6 })
  | .fab _ => .next s
  | .fabPlane _ _ => .next s
  | .opt q off => writeOpt s q off v
  | .cmb off => writeCmb s off v
  | .port i 0x1C => execMemUeAddrClear i v s
  | .port _ _ => .next s
  | .eth p off => writeEth s p off v
  | .aplic m off => .next (State.settleIrq { s.settleIrq with irq := s.settleIrq.irq.writeDomain m off v })
  | .imsic m h off => .next { s with irq := s.irq.writeFile m h off v }
  | .ddr => .next s
  | .tileSram .. => .next s
  | .hostSram => .next s
  | .bootRom => .next s
  | .hole => .next s
  | .nowhere => .next s

/-- A store of bytes by hart h: none for a store access fault (R456) and for a hart in reset (R393). A failure is recorded and discards it (R42, R46, R459); one to
DDR stays in the harts' caches until they write its line back (R394); one to a gated island is discarded (R431).
(DESIGN CHOICE, log 109). (DEDUCED, log 46). -/
def State.hartStore (s : State) (h : HartId) (a : Nat) (l : List Byte) (amo : Bool) : Option (Host.Outcome State Fault Refusal) :=
  if !s.hartRuns h || !s.hartMay a l.length true amo then none
  else match failure s a, placeOf s.part a with
    | some (p, c), .tileSram .. => some (.next (s.svcError p.1 c))
    | _, .tileSram p off => some (.next (if s.power.shutdown then s else s.wrBytes (sramBase p.1 + off) l))
    | _, .ddr => some (.next (s.cacheStore a l))
    | _, .hostSram => some (.next (s.wrBytes a l))
    | _, x => some (writePlace x (BitVec.ofNat 32 (leNat l)) s)

/-- A 4-byte store of a running hart, here hart 0, to a register or to another place that a hart reaches; an access fault at the hart changes nothing.
(DEDUCED, log 46; DESIGN CHOICE, log 109). -/
def execRegisterWrite (addr : BitVec 48) (v : BitVec 32) (s : State) : Host.Outcome State Fault Refusal :=
  s.whenPowered fun s => (s.hartStore 0 addr.toNat (leBytes v.toNat 4) false).getD (.next s)

/-! ### Accesses that fail (R42, R46, R459) -/

/-- A failed access reads zero, or writes nothing, and is recorded (R42, R46, R459). (DEDUCED, log 20). -/
def execFailedAccess (addr : BitVec 48) (isWrite : Bool) (s : State) : Host.Outcome State Fault Refusal :=
  s.whenPowered fun s =>
  match failure s addr.toNat with
  | some (p, c) => .next ((if isWrite then s else { s with readValue := 0 }).svcError p.1 c)
  | none => .next s

/-! ### Reads that clear (R11) -/

/-- A read of a counter of a tile, delivered and cleared; a pruned tile reads zero (R46). -/
def readTileCounter (s : State) (p : TileId) (get : Tile → W32) (clear : Tile → Tile) : Host.Outcome State Fault Refusal :=
  if s.pruned p then .next ({ s with readValue := 0 }.svcError p.1 1)
  else .next ({ s with readValue := get (s.tile p) }.modTile p clear)

def execTleArrCounterRead (p : TileId) (c : ArrCounter) (s : State) : Host.Outcome State Fault Refusal :=
  match c with
  | .freeze => readTileCounter s p (·.arr.freeze) fun t => { t with arr := { t.arr with freeze := 0 } }
  | .sat => readTileCounter s p (·.arr.sat) fun t => { t with arr := { t.arr with sat := 0 } }
  | .nannum => readTileCounter s p (·.arr.nannum) fun t => { t with arr := { t.arr with nannum := 0 } }
  | .nonfin => readTileCounter s p (·.arr.nonfin) fun t => { t with arr := { t.arr with nonfin := 0 } }

def execTleTurnWaitRead (p : TileId) (s : State) : Host.Outcome State Fault Refusal :=
  readTileCounter s p (·.turnWait) fun t => { t with turnWait := 0 }

def execTleSeqCounterRead (p : TileId) (c : SeqCounter) (s : State) : Host.Outcome State Fault Refusal :=
  match c with
  | .wait => readTileCounter s p (·.wait) fun t => { t with wait := 0 }
  | .qfull => readTileCounter s p (·.qfull) fun t => { t with qfull := 0 }
  | .enter => readTileCounter s p (·.enter) fun t => { t with enter := 0 }

def execTleVecCounterRead (p : TileId) (c : VecCounter) (s : State) : Host.Outcome State Fault Refusal :=
  match c with
  | .invalid => readTileCounter s p (·.vec.invalid) fun t => { t with vec := { t.vec with invalid := 0 } }
  | .divzero => readTileCounter s p (·.vec.divzero) fun t => { t with vec := { t.vec with divzero := 0 } }
  | .sat => readTileCounter s p (·.vec.sat) fun t => { t with vec := { t.vec with sat := 0 } }
  | .nannum => readTileCounter s p (·.vec.nannum) fun t => { t with vec := { t.vec with nannum := 0 } }
  | .nonfin => readTileCounter s p (·.vec.nonfin) fun t => { t with vec := { t.vec with nonfin := 0 } }
  | .stall => readTileCounter s p (·.vec.stall) fun t => { t with vec := { t.vec with stall := 0 } }
  | .genWrap => readTileCounter s p (·.vec.genWrap) fun t => { t with vec := { t.vec with genWrap := 0 } }

def execTleStrmCounterRead (p : TileId) (c : StrmCounter) (s : State) : Host.Outcome State Fault Refusal :=
  match c with
  | .rearm => readTileCounter s p (·.strm.rearm) fun t => { t with strm := { t.strm with rearm := 0 } }
  | .pairwait => readTileCounter s p (·.strm.pairwait) fun t => { t with strm := { t.strm with pairwait := 0 } }

def execTleRtfCounterRead (p : TileId) (c : RtfCounter) (s : State) : Host.Outcome State Fault Refusal :=
  match c with
  | .tokens => readTileCounter s p (·.rtf.tokens) fun t => { t with rtf := { t.rtf with tokens := 0 } }
  | .nonfin => readTileCounter s p (·.rtf.nonfin) fun t => { t with rtf := { t.rtf with nonfin := 0 } }

def execTleThermCounterRead (p : TileId) (c : ThermCounter) (s : State) : Host.Outcome State Fault Refusal :=
  match c with
  | .hold => readTileCounter s p (·.therm.hold) fun t => { t with therm := { t.therm with hold := 0 } }
  | .stretch => readTileCounter s p (·.therm.stretch) fun t => { t with therm := { t.therm with stretch := 0 } }

def execRtuCounterRead (c : RtuCounter) (s : State) : Host.Outcome State Fault Refusal :=
  match c with
  | .choices => .next { s with readValue := s.rtu.choices, rtu := { s.rtu with choices := 0 } }
  | .nulls => .next { s with readValue := s.rtu.nulls, rtu := { s.rtu with nulls := 0 } }
  | .skips => .next { s with readValue := s.rtu.skips, rtu := { s.rtu with skips := 0 } }
  | .evcalls => .next { s with readValue := s.rtu.evcalls, rtu := { s.rtu with evcalls := 0 } }

/-- A read of a counter of a port, delivered and cleared. -/
def readPortCounter (s : State) (i : PortId) (get : Port → W32) (clear : Port → Port) : Host.Outcome State Fault Refusal :=
  .next ({ s with readValue := get (s.port i.1) }.modPort i.1 clear)

def execMemCounterRead (i : PortId) (c : MemCounter) (s : State) : Host.Outcome State Fault Refusal :=
  match c with
  | .ce => readPortCounter s i (·.ce) fun x => { x with ce := 0 }
  | .ue => readPortCounter s i (·.ue) fun x => { x with ue := 0 }
  | .mergeErr => readPortCounter s i (fun x => x.mergeErr.setWidth 32) fun x => { x with mergeErr := 0 }

def execGplCounterRead (i : PortId) (c : GplCounter) (s : State) : Host.Outcome State Fault Refusal :=
  match c with
  | .rows => readPortCounter s i (·.gplRows) fun x => { x with gplRows := 0 }
  | .oor => readPortCounter s i (·.gplOor) fun x => { x with gplOor := 0 }
  | .bags => readPortCounter s i (·.gplBags) fun x => { x with gplBags := 0 }

def execUpdCounterRead (i : PortId) (c : UpdCounter) (s : State) : Host.Outcome State Fault Refusal :=
  match c with
  | .units => readPortCounter s i (·.updUnits) fun x => { x with updUnits := 0 }
  | .catchup => readPortCounter s i (·.updCatchup) fun x => { x with updCatchup := 0 }
  | .nonfin => readPortCounter s i (·.updNonfin) fun x => { x with updNonfin := 0 }
  | .restored => readPortCounter s i (·.updRestored) fun x => { x with updRestored := 0 }
  | .stamperr => readPortCounter s i (·.updStamperr) fun x => { x with updStamperr := 0 }

/-- A read of a counter of the pair selected in OPT_PAIR_SEL. -/
def readPairCounter (s : State) (q : PlaneId) (get : Pair → W32) (clear : Pair → Pair) : Host.Outcome State Fault Refusal :=
  let c := (s.plane q).pairSel
  .next ({ s with readValue := get (s.pair q c) }.modPair q c clear)

def execOptCounterRead (q : PlaneId) (c : OptCounter) (s : State) : Host.Outcome State Fault Refusal :=
  match c with
  | .fecCorr => readPairCounter s q (·.fecCorr) fun x => { x with fecCorr := 0 }
  | .fecUnc => readPairCounter s q (·.fecUnc) fun x => { x with fecUnc := 0 }
  | .crcErr => readPairCounter s q (·.crcErr) fun x => { x with crcErr := 0 }
  | .replayed => readPairCounter s q (·.replayed) fun x => { x with replayed := 0 }
  | .holds => readPairCounter s q (·.holds) fun x => { x with holds := 0 }

def execFabCounterRead (c : FabCounter) (s : State) : Host.Outcome State Fault Refusal :=
  match c with
  | .discard => .next { s with readValue := s.fabric.discard, fabric := { s.fabric with discard := 0 } }
  | .noroute => .next { s with readValue := s.fabric.noroute, fabric := { s.fabric with noroute := 0 } }
  | .resent => .next { s with readValue := s.fabric.resent, fabric := { s.fabric with resent := 0 } }

def execPwrCounterRead (c : PwrCounter) (s : State) : Host.Outcome State Fault Refusal :=
  match c with
  | .stretch => .next { s with readValue := s.power.stretch, power := { s.power with stretch := 0 } }
  | .throttle => .next { s with readValue := s.power.throttle, power := { s.power with throttle := 0 } }
  | .warnCount => .next { s with readValue := s.power.warnCount, power := { s.power with warnCount := 0 } }

/-- A read of a counter of an Ethernet port. -/
def readEthCounter (s : State) (p : EthId) (get : EthPort → W32) (clear : EthPort → EthPort) :
    Host.Outcome State Fault Refusal := .next ({ s with readValue := get (s.ethPort p) }.modEth p clear)

def execEthCounterRead (p : EthId) (c : EthCounter) (s : State) : Host.Outcome State Fault Refusal :=
  match c with
  | .rxFrames => readEthCounter s p (·.rxFrames) fun x => { x with rxFrames := 0 }
  | .rxFcs => readEthCounter s p (·.rxFcs) fun x => { x with rxFcs := 0 }
  | .rxNobuf => readEthCounter s p (·.rxNobuf) fun x => { x with rxNobuf := 0 }
  | .txFrames => readEthCounter s p (·.txFrames) fun x => { x with txFrames := 0 }
  | .fecCorr => readEthCounter s p (·.fecCorr) fun x => { x with fecCorr := 0 }
  | .fecUnc => readEthCounter s p (·.fecUnc) fun x => { x with fecUnc := 0 }
  | .sigLost => readEthCounter s p (·.sigLost) fun x => { x with sigLost := 0 }

end Sys2Proof.Machine
end

