-- ==== Sys2Proof/Machine/Spdm.lean ====
section
/-!
DEFINITION. The SPDM responder (R402, R408). What a response carries is modelled; its octets are those of DMTF SPDM 1.2, which
is outside the spec.
-/
namespace Sys2Proof.Machine

/-- The length of the DER element at the head of a list of bytes; none where it is not a SEQUENCE of a length in up to three
octets. -/
def derLength (l : List Byte) : Option Nat :=
  if l.headD 0 ≠ 0x30 then none
  else
    let n := (l.drop 1).headD 0
    if n.toNat < 0x80 then some (2 + n.toNat)
    else if 0x81 ≤ n.toNat ∧ n.toNat ≤ 0x83 then
      let k := n.toNat - 0x80
      some (2 + k + Sha.beNat ((l.drop 2).take k))
    else none

namespace State

/-- The three certificates of the chain in flash (R396, R402): device, device CA, root CA. -/
def certificates (s : State) : List (List Byte) :=
  let rec go : Nat → List Byte → List (List Byte)
    | 0, _ => []
    | n + 1, l => match derLength l with
      | some k => l.take k :: go n (l.drop k)
      | none => []
  go 3 (s.flashBytes 0x824_0000 0x1_0000)

/-- The chain of slot 0 in the form of SPDM 1.2: length, two reserved bytes, the hash of the root certificate, the
certificates from the root downward. (PRESUMED, log 82). -/
def certChain (s : State) : List Byte :=
  let c := s.certificates.reverse
  leBytes (52 + c.flatten.length) 2 ++ [0#8, 0#8] ++ sha384 (c.headD []) ++ c.flatten

/-- n free bytes. -/
def takeBytes (s : State) (n : Nat) : List Byte × State :=
  ((List.range n).map (Config.freeByte s.freeCtr), { s with freeCtr := s.freeCtr + 1 })

/-- A signature of the device identity key over the hash of the transcript, whose octets SPDM 1.2 gives: the hash is
free. (DESIGN CHOICE, log 94). -/
def takeSignature (s : State) : List Byte × State :=
  let h := s.takeBytes 48
  (ecdsaSignHash ownSecret (P384.scalar (Config.nonce h.2.freeCtr)) h.1, { h.2 with freeCtr := h.2.freeCtr + 1 })

end State

/-- A request of the SPDM responder. -/
def isSpdmRequest : Instr → Bool
  | .getVersion => true
  | .getCapabilities => true
  | .negotiateAlgorithms .. => true
  | .getDigests => true
  | .getCertificate .. => true
  | .challenge .. => true
  | .getMeasurements .. => true
  | .unsupportedRequest _ => true
  | _ => false

/-! ### The octets of the connection (R408): a 4-byte little-endian length of 4 to 4,096 before each message -/

/-- A message with its length in front. (PRESUMED, log 82). -/
def spdmFrame (m : List Byte) : List Byte := leBytes m.length 4 ++ m

/-- The length at the head of the octets received; none where it is not complete or not 4 to 4,096. (DESIGN CHOICE, log 115). -/
def spdmLength (l : List Byte) : Option Nat :=
  let n := leNat (l.take 4)
  if 4 ≤ l.length ∧ 4 ≤ n ∧ n ≤ 4096 then some n else none

/-- The complete messages at the head of the octets received, and the octets after them. Octets behind a length outside its
bounds carry no message. (DESIGN CHOICE, log 115). (PRESUMED, log 82). -/
def spdmMessages (l : List Byte) : List (List Byte) × List Byte :=
  let rec go : Nat → List Byte → List (List Byte) × List Byte
    | 0, l => ([], l)
    | k + 1, l => match spdmLength l with
      | none => ([], l)
      | some n =>
        if l.length < n + 4 then ([], l)
        else
          let r := go k (l.drop (n + 4))
          ((l.drop 4).take n :: r.1, r.2)
  go l.length l

/-- The request a message is: byte 1 holds its code. (PRESUMED, log 82: the codes and fields of DSP0274 1.2). -/
def requestOf (m : List Byte) : Instr :=
  let at_ (k n : Nat) : List Byte := (m.drop k).take n
  let b (k : Nat) : Byte := m.getD k 0
  match (b 1).toNat with
  | 0x84 => .getVersion
  | 0xE1 => .getCapabilities
  | 0xE3 => .negotiateAlgorithms (BitVec.ofNat 32 (leNat (at_ 8 4))) (BitVec.ofNat 32 (leNat (at_ 12 4)))
  | 0x81 => .getDigests
  | 0x82 => .getCertificate (b 2 &&& 0xF) (leNat (at_ 4 2)) (leNat (at_ 6 2))
  | 0x83 => .challenge (b 2) (at_ 4 32)
  | 0xE0 => .getMeasurements (b 3) ((b 2).getLsbD 0) (at_ 4 32)
  | _ => .unsupportedRequest (b 1)

/-- The octets of the connection as the commands they are. -/
def requestsOf (l : List Byte) : List Instr := (spdmMessages l).1.map requestOf

namespace State

/-- A request on the open connection (R408); without one, nothing. A connection with another request outstanding is closed.
(PRESUMED, log 82). -/
def onRequest (s : State) (f : State → State) : State :=
  if !s.spdm.isOpen then s else if s.pending.any isSpdmRequest then { s with spdm := ⟨false, none⟩ } else f s

/-- A response on the open connection. -/
def answerSpdm (s : State) (r : SpdmResponse) : State := { s with spdm := { s.spdm with response := some r } }
def respond (s : State) (r : SpdmResponse) : State := s.onRequest fun s => s.answerSpdm r

end State

/-- A TCP connection is opened or closed: a second one is refused while one is open. -/
def execSpdmConnection (e : ConnEvent) (s : State) : Host.Outcome State Fault Refusal :=
  s.whenPowered fun s =>
  match e with
  | .opened => .next (if s.spdm.isOpen then s else { s with spdm := ⟨true, none⟩ })
  | .closed => .next { s with spdm := ⟨false, none⟩ }

/-- SPDM 1.2 only, as a version number entry of the specification. (PRESUMED, log 82). -/
def execGetVersion (s : State) : Host.Outcome State Fault Refusal := .next (s.respond (.version [0x1200]))
/-- CERT_CAP, CHAL_CAP, and MEAS_CAP with signature. (PRESUMED, log 82). -/
def execGetCapabilities (s : State) : Host.Outcome State Fault Refusal := .next (s.respond (.capabilities 0x16))

/-- Of the algorithms offered, P-384 (BaseAsymAlgo bit 7) and SHA-384 (BaseHashAlgo bit 1) only. (PRESUMED, log 82). -/
def execNegotiateAlgorithms (baseAsym baseHash : BitVec 32) (s : State) : Host.Outcome State Fault Refusal :=
  .next (s.respond (.algorithms (baseAsym &&& 0x80) (baseHash &&& 2)))

def execGetDigests (s : State) : Host.Outcome State Fault Refusal := .next (s.respond (.digests (sha384 s.certChain)))

/-- A portion of the chain of slot 0, within a message of 4,096 bytes of which 8 are its header, and the bytes left after it.
(PRESUMED, log 82). -/
def execGetCertificate (slot : BitVec 8) (offset length : Nat) (s : State) : Host.Outcome State Fault Refusal :=
  if slot ≠ 0 then .next (s.respond .unsupportedRequest)
  else
    let rest := s.certChain.drop offset
    let n := min length 4088
    .next (s.respond (.certificate (rest.take n) (rest.length - n)))

/-- The responder's nonce and signature are free; the requester's nonce is signed with them. -/
def execChallenge (slot : BitVec 8) (_nonce : List Byte) (s : State) : Host.Outcome State Fault Refusal :=
  .next (s.onRequest fun s =>
    if slot ≠ 0 then s.answerSpdm .unsupportedRequest
    else
      let n := s.takeBytes 32
      let g := n.2.takeSignature
      g.2.answerSpdm (.challengeAuth (sha384 s.certChain) n.1 g.1))

/-- The measurement registers as blocks of raw digests: one, all with 0xFF, none with 0. (PRESUMED, log 82). -/
def execGetMeasurements (index : BitVec 8) (signed : Bool) (_nonce : List Byte) (s : State) :
    Host.Outcome State Fault Refusal :=
  let i := index.toNat
  .next (s.onRequest fun s =>
    if 10 < i ∧ i ≠ 0xFF then s.answerSpdm .unsupportedRequest
    else
      let l := if i = 0xFF then (List.range 10).map (· + 1) else if i = 0 then [] else [i]
      let blocks := l.map fun k => (k, s.measurement k)
      let n := s.takeBytes 32
      if signed then
        let g := n.2.takeSignature
        g.2.answerSpdm (.measurements blocks n.1 g.1)
      else n.2.answerSpdm (.measurements blocks n.1 []))

def execUnsupportedRequest (_code : BitVec 8) (s : State) : Host.Outcome State Fault Refusal :=
  .next (s.respond .unsupportedRequest)

end Sys2Proof.Machine
end

