-- ==== Sys2Proof/Machine/Dispatch.lean ====
section
/-!
DEFINITION. The meaning of every command: one arm for each row of the table, each one call of its meaning.
-/
namespace Sys2Proof.Machine
open Sys2Proof

def exec (i : Instr) (s : State) : Host.Outcome State Fault Refusal :=
  match i with
  | .pwrEnAssert vin offMs => Sys2Proof.Machine.execPwrEnAssert vin offMs s
  | .pgAssert b => Sys2Proof.Machine.execPgAssert b s
  | .pwrEnDeassert => Sys2Proof.Machine.execPwrEnDeassert s
  | .moduleReset => Sys2Proof.Machine.execModuleReset s
  | .resetRelease b => Sys2Proof.Machine.execResetRelease b s
  | .railOutOfRegulation => Sys2Proof.Machine.execRailOutOfRegulation s
  | .supplyLoss => Sys2Proof.Machine.execSupplyLoss s
  | .vinLow vin => Sys2Proof.Machine.execVinLow vin s
  | .vinHigh vin => Sys2Proof.Machine.execVinHigh vin s
  | .iinWarn iin => Sys2Proof.Machine.execIinWarn iin s
  | .undervoltageFault vin => Sys2Proof.Machine.execUndervoltageFault vin s
  | .overvoltageFault vin => Sys2Proof.Machine.execOvervoltageFault vin s
  | .overcurrentFault iin => Sys2Proof.Machine.execOvercurrentFault iin s
  | .shortCircuitFault iin => Sys2Proof.Machine.execShortCircuitFault iin s
  | .limiterUpdate m => Sys2Proof.Machine.execLimiterUpdate m s
  | .thermalSample p tj => Sys2Proof.Machine.execThermalSample p tj s
  | .stretchEvent p droopPermille => Sys2Proof.Machine.execStretchEvent p droopPermille s
  | .clockFault p => Sys2Proof.Machine.execClockFault p s
  | .moduleThermalShutdown optical => Sys2Proof.Machine.execModuleThermalShutdown optical s
  | .dimmSensorRead port temp => Sys2Proof.Machine.execDimmSensorRead port temp s
  | .firmwareEntry => Sys2Proof.Machine.execFirmwareEntry s
  | .recoveryWrite image => Sys2Proof.Machine.execRecoveryWrite image s
  | .meshOpen writeOk => Sys2Proof.Machine.execMeshOpen writeOk s
  | .meshPruneReq v => Sys2Proof.Machine.execMeshPruneReq v s
  | .fieldMapWriteDone ok => Sys2Proof.Machine.execFieldMapWriteDone ok s
  | .fieldMapRetry ok => Sys2Proof.Machine.execFieldMapRetry ok s
  | .meshPacket p arrival out ready => Sys2Proof.Machine.execMeshPacket p arrival out ready s
  | .serviceTreeTimeout target isWrite => Sys2Proof.Machine.execServiceTreeTimeout target isWrite s
  | .meshSvcErrClear v => Sys2Proof.Machine.execMeshSvcErrClear v s
  | .start cancel => Sys2Proof.Machine.execStart cancel s
  | .cancel start => Sys2Proof.Machine.execCancel start s
  | .launchChecks => Sys2Proof.Machine.execLaunchChecks s
  | .launchIdle => Sys2Proof.Machine.execLaunchIdle s
  | .hardwareFault p cause => Sys2Proof.Machine.execHardwareFault p cause s
  | .hstTallyWrite n v => Sys2Proof.Machine.execHstTallyWrite n v s
  | .hostTallyAdd src => Sys2Proof.Machine.execHostTallyAdd src s
  | .tleSignalWrite p v => Sys2Proof.Machine.execTleSignalWrite p v s
  | .hstRevokeGo v => Sys2Proof.Machine.execHstRevokeGo v s
  | .hstLaunchStatusClear v => Sys2Proof.Machine.execHstLaunchStatusClear v s
  | .hstRevokeStatusClear v => Sys2Proof.Machine.execHstRevokeStatusClear v s
  | .nop p rsv => Sys2Proof.Machine.execNop p rsv s
  | .alu p sd sa sb fn rsv => Sys2Proof.Machine.execAlu p sd sa sb fn rsv s
  | .alui p sd sa fn rsv imm => Sys2Proof.Machine.execAlui p sd sa fn rsv imm s
  | .li p sd pos rsv imm => Sys2Proof.Machine.execLi p sd pos rsv imm s
  | .ld p sd sa size sx sp rsv off => Sys2Proof.Machine.execLd p sd sa size sx sp rsv off s
  | .st p ss sa size rsv1 sp rsv off => Sys2Proof.Machine.execSt p ss sa size rsv1 sp rsv off s
  | .br p sa sb cond rsv off => Sys2Proof.Machine.execBr p sa sb cond rsv off s
  | .jal p sd rsv off => Sys2Proof.Machine.execJal p sd rsv off s
  | .jr p sd sa rsv => Sys2Proof.Machine.execJr p sd sa rsv s
  | .mark p en rsv => Sys2Proof.Machine.execMark p en rsv s
  | .getv p sd sel rsv => Sys2Proof.Machine.execGetv p sd sel rsv s
  | .fence p qmask rsv => Sys2Proof.Machine.execFence p qmask rsv s
  | .halt p rsv => Sys2Proof.Machine.execHalt p rsv s
  | .tset p t rsv value => Sys2Proof.Machine.execTset p t rsv value s
  | .signal p kind rel sa t rsv value => Sys2Proof.Machine.execSignal p kind rel sa t rsv value s
  | .signalRelease p => Sys2Proof.Machine.execSignalRelease p s
  | .tallyAdd src dst => Sys2Proof.Machine.execTallyAdd src dst s
  | .memoryCounterAdd src => Sys2Proof.Machine.execMemoryCounterAdd src s
  | .waitt p t mk sv sa rsv value => Sys2Proof.Machine.execWaitt p t mk sv sa rsv value s
  | .claim p sd sa list rsv off => Sys2Proof.Machine.execClaim p sd sa list rsv off s
  | .claim2 p sd sa list rsv off => Sys2Proof.Machine.execClaim2 p sd sa list rsv off s
  | .claimArrival p k => Sys2Proof.Machine.execClaimArrival p k s
  | .claimReply p k => Sys2Proof.Machine.execClaimReply p k s
  | .revoke p sd sa list rsv off => Sys2Proof.Machine.execRevoke p sd sa list rsv off s
  | .lset p sd sa list rsv off => Sys2Proof.Machine.execLset p sd sa list rsv off s
  | .enterRequest p => Sys2Proof.Machine.execEnterRequest p s
  | .enterReply p => Sys2Proof.Machine.execEnterReply p s
  | .lli p sd rel rsv value imm => Sys2Proof.Machine.execLli p sd rel rsv value imm s
  | .ljmp p sd rel rsv value imm => Sys2Proof.Machine.execLjmp p sd rel rsv value imm s
  | .lsignal p sd rel rsv value imm => Sys2Proof.Machine.execLsignal p sd rel rsv value imm s
  | .xload p dx rs sa klen nlen rsv => Sys2Proof.Machine.execXload p dx rs sa klen nlen rsv s
  | .mmul p dw rs dy ws sa sb pass dc rc rsv => Sys2Proof.Machine.execMmul p dw rs dy ws sa sb pass dc rc rsv s
  | .dcfg p sx rsv => Sys2Proof.Machine.execDcfg p sx rsv s
  | .acfg p sx rsv => Sys2Proof.Machine.execAcfg p sx rsv s
  | .dstat p sx dst clr src rsv => Sys2Proof.Machine.execDstat p sx dst clr src rsv s
  | .statMerge p => Sys2Proof.Machine.execStatMerge p s
  | .aload p da rs sa ilen jlen rsv => Sys2Proof.Machine.execAload p da rs sa ilen jlen rsv s
  | .amul p dx rs dout ws sa sb pass dc rc rsv => Sys2Proof.Machine.execAmul p dx rs dout ws sa sb pass dc rc rsv s
  | .xloadt p dx rs sa klen nlen rsv => Sys2Proof.Machine.execXloadt p dx rs sa klen nlen rsv s
  | .dxmul p dw rs dy ws sa sb pass dc rc dmode mpid rsv => Sys2Proof.Machine.execDxmul p dw rs dy ws sa sb pass dc rc dmode mpid rsv s
  | .dwmul p dd rs dg ws sa sb pass dc rc gs rsv => Sys2Proof.Machine.execDwmul p dd rs dg ws sa sb pass dc rc gs rsv s
  | .lfmt p sd sl rsv => Sys2Proof.Machine.execLfmt p sd sl rsv s
  | .vop p sd sa sb fn ty rnd cnt rsv => Sys2Proof.Machine.execVop p sd sa sb fn ty rnd cnt rsv s
  | .vter p sd sa sb sc fn ty rnd cnt rsv => Sys2Proof.Machine.execVter p sd sa sb sc fn ty rnd cnt rsv s
  | .vcvt p sd sa sc ts td rnd cnt rsv => Sys2Proof.Machine.execVcvt p sd sa sc ts td rnd cnt rsv s
  | .vred p sd sa sb sl fn ty cnt rsv => Sys2Proof.Machine.execVred p sd sa sb sl fn ty cnt rsv s
  | .vmp p sd sa sb sc mpid ti td rnd cnt rsv => Sys2Proof.Machine.execVmp p sd sa sb sc mpid ti td rnd cnt rsv s
  | .vrand p sd sb mode cnt rsv => Sys2Proof.Machine.execVrand p sd sb mode cnt rsv s
  | .seek p sa sub rsv => Sys2Proof.Machine.execSeek p sa sub rsv s
  | .skey p sa sub rsv => Sys2Proof.Machine.execSkey p sa sub rsv s
  | .gsave p sa sub rsv => Sys2Proof.Machine.execGsave p sa sub rsv s
  | .grest p sa sub rsv => Sys2Proof.Machine.execGrest p sa sub rsv s
  | .genSkip p sa sub rsv => Sys2Proof.Machine.execGenSkip p sa sub rsv s
  | .dmake p d sa rsv => Sys2Proof.Machine.execDmake p d sa rsv s
  | .dbase p d sa rsv => Sys2Proof.Machine.execDbase p d sa rsv s
  | .swaph p d rsv => Sys2Proof.Machine.execSwaph p d rsv s
  | .sarm p ds rs dd sa sb sc te t rsv => Sys2Proof.Machine.execSarm p ds rs dd sa sb sc te t rsv s
  | .copy p ds rs dd ws sa sb sc tr rsv => Sys2Proof.Machine.execCopy p ds rs dd ws sa sb sc tr rsv s
  | .streamSlotComplete p slot => Sys2Proof.Machine.execStreamSlotComplete p slot s
  | .rsel p ds rs sk sa sc rsv => Sys2Proof.Machine.execRsel p ds rs sk sa sc rsv s
  | .rassign p sc ev t rsv => Sys2Proof.Machine.execRassign p sc ev t rsv s
  | .assignCall => Sys2Proof.Machine.execAssignCall s
  | .gather p ds rs dd ws da ra sc sa sb gw rnd rsv => Sys2Proof.Machine.execGather p ds rs dd ws da ra sc sa sb gw rnd rsv s
  | .scatter p ds rs dd ws da ra sc sa sb gw rnd rsv => Sys2Proof.Machine.execScatter p ds rs dd ws da ra sc sa sb gw rnd rsv s
  | .combine p ds rs dd ws da ra sc sa sb gw rnd rsv => Sys2Proof.Machine.execCombine p ds rs dd ws da ra sc sa sb gw rnd rsv s
  | .ggrad p ds rs dd ws da ra sc sa sb gw rnd rsv => Sys2Proof.Machine.execGgrad p ds rs dd ws da ra sc sa sb gw rnd rsv s
  | .ddrRead addr ecc req => Sys2Proof.Machine.execDdrRead addr ecc req s
  | .ddrWrite addr data mask => Sys2Proof.Machine.execDdrWrite addr data mask s
  | .patrolScrub addr ecc => Sys2Proof.Machine.execPatrolScrub addr ecc s
  | .rankRetrain port rank phase => Sys2Proof.Machine.execRankRetrain port rank phase s
  | .atom p fn sd sa sb sc rel rsv => Sys2Proof.Machine.execAtom p fn sd sa sb sc rel rsv s
  | .gpool p fn dt dd sb rnd te t rsv => Sys2Proof.Machine.execGpool p fn dt dd sb rnd te t rsv s
  | .gsrow p fn dg dr sb so rnd te t rsv => Sys2Proof.Machine.execGsrow p fn dg dr sb so rnd te t rsv s
  | .updt p grp sa sb src te t rsv => Sys2Proof.Machine.execUpdt p grp sa sb src te t rsv s
  | .unitUpdate port => Sys2Proof.Machine.execUnitUpdate port s
  | .ringLockUpdate q c errTx errRx loopTx loopRx slew dieTemp => Sys2Proof.Machine.execRingLockUpdate q c errTx errRx loopTx loopRx slew dieTemp s
  | .tuneFeedforward q powers => Sys2Proof.Machine.execTuneFeedforward q powers s
  | .codeword q c w => Sys2Proof.Machine.execCodeword q c w s
  | .holdExit q c => Sys2Proof.Machine.execHoldExit q c s
  | .marginTestDone q c errors => Sys2Proof.Machine.execMarginTestDone q c errors s
  | .pairFail q c => Sys2Proof.Machine.execPairFail q c s
  | .pairRetry q c => Sys2Proof.Machine.execPairRetry q c s
  | .marginEstimate est => Sys2Proof.Machine.execMarginEstimate est s
  | .tapPowerDrop c power => Sys2Proof.Machine.execTapPowerDrop c power s
  | .spareLocked => Sys2Proof.Machine.execSpareLocked s
  | .combFail combB => Sys2Proof.Machine.execCombFail combB s
  | .forceWarm => Sys2Proof.Machine.execForceWarm s
  | .forceSwitch => Sys2Proof.Machine.execForceSwitch s
  | .dataFrame q c h crcOk f => Sys2Proof.Machine.execDataFrame q c h crcOk f s
  | .controlFrame q c h crcOk => Sys2Proof.Machine.execControlFrame q c h crcOk s
  | .replayTimeout q c => Sys2Proof.Machine.execReplayTimeout q c s
  | .controlFrameDue q c => Sys2Proof.Machine.execControlFrameDue q c s
  | .optRun q v => Sys2Proof.Machine.execOptRun q v s
  | .optEventClear q v => Sys2Proof.Machine.execOptEventClear q v s
  | .cmbEventClear v => Sys2Proof.Machine.execCmbEventClear v s
  | .discoverySend q c => Sys2Proof.Machine.execDiscoverySend q c s
  | .discoveryFrame q c payload => Sys2Proof.Machine.execDiscoveryFrame q c payload s
  | .join m => Sys2Proof.Machine.execJoin m s
  | .confirm m => Sys2Proof.Machine.execConfirm m s
  | .joinTimeout => Sys2Proof.Machine.execJoinTimeout s
  | .transportData f => Sys2Proof.Machine.execTransportData f s
  | .graftRelay q c f => Sys2Proof.Machine.execGraftRelay q c f s
  | .noroute relayFpr m => Sys2Proof.Machine.execNoroute relayFpr m s
  | .grant src group coll bound => Sys2Proof.Machine.execGrant src group coll bound s
  | .skipMessage src group coll b0 nb => Sys2Proof.Machine.execSkipMessage src group coll b0 nb s
  | .end_ src group coll => Sys2Proof.Machine.execEnd src group coll s
  | .abort src endCode => Sys2Proof.Machine.execAbort src endCode s
  | .rscat p sd sa te t rsv => Sys2Proof.Machine.execRscat p sd sa te t rsv s
  | .agather p sd sa te t rsv => Sys2Proof.Machine.execAgather p sd sa te t rsv s
  | .a2a p sd sa te t rsv => Sys2Proof.Machine.execA2a p sd sa te t rsv s
  | .bcast p sd sa te t rsv => Sys2Proof.Machine.execBcast p sd sa te t rsv s
  | .srow p sd sa te t rsv => Sys2Proof.Machine.execSrow p sd sa te t rsv s
  | .barrier p sd sa te t rsv => Sys2Proof.Machine.execBarrier p sd sa te t rsv s
  | .put p sd sa te t rsv => Sys2Proof.Machine.execPut p sd sa te t rsv s
  | .get p sd sa te t rsv => Sys2Proof.Machine.execGet p sd sa te t rsv s
  | .fsendArm p ws sa sb rsv => Sys2Proof.Machine.execFsendArm p ws sa sb rsv s
  | .fsendSkip p ws sa sb rsv => Sys2Proof.Machine.execFsendSkip p ws sa sb rsv s
  | .blockReduce group coll block => Sys2Proof.Machine.execBlockReduce group coll block s
  | .rowReduce group coll row => Sys2Proof.Machine.execRowReduce group coll row s
  | .arrival => Sys2Proof.Machine.execArrival s
  | .commitMessage m => Sys2Proof.Machine.execCommitMessage m s
  | .commitTimeout => Sys2Proof.Machine.execCommitTimeout s
  | .stepCommit => Sys2Proof.Machine.execStepCommit s
  | .stripe m => Sys2Proof.Machine.execStripe m s
  | .stripeAck holder seq index answer => Sys2Proof.Machine.execStripeAck holder seq index answer s
  | .seal owner m => Sys2Proof.Machine.execSeal owner m s
  | .healthEval => Sys2Proof.Machine.execHealthEval s
  | .secureNow => Sys2Proof.Machine.execSecureNow s
  | .hmnRun v => Sys2Proof.Machine.execHmnRun v s
  | .hmnEventClear v => Sys2Proof.Machine.execHmnEventClear v s
  | .inv m => Sys2Proof.Machine.execInv m s
  | .restoreFetchDone image spare => Sys2Proof.Machine.execRestoreFetchDone image spare s
  | .flashGo => Sys2Proof.Machine.execFlashGo s
  | .eraseOnly => Sys2Proof.Machine.execEraseOnly s
  | .flashDone => Sys2Proof.Machine.execFlashDone s
  | .hstFlashStatusClear v => Sys2Proof.Machine.execHstFlashStatusClear v s
  | .maintenanceCommand v => Sys2Proof.Machine.execMaintenanceCommand v s
  | .enrol v => Sys2Proof.Machine.execEnrol v s
  | .measure v => Sys2Proof.Machine.execMeasure v s
  | .svnCommit v => Sys2Proof.Machine.execSvnCommit v s
  | .secEventClear v => Sys2Proof.Machine.execSecEventClear v s
  | .getVersion => Sys2Proof.Machine.execGetVersion s
  | .getCapabilities => Sys2Proof.Machine.execGetCapabilities s
  | .negotiateAlgorithms baseAsym baseHash => Sys2Proof.Machine.execNegotiateAlgorithms baseAsym baseHash s
  | .getDigests => Sys2Proof.Machine.execGetDigests s
  | .getCertificate slot offset length => Sys2Proof.Machine.execGetCertificate slot offset length s
  | .challenge slot nonce => Sys2Proof.Machine.execChallenge slot nonce s
  | .getMeasurements index signed nonce => Sys2Proof.Machine.execGetMeasurements index signed nonce s
  | .unsupportedRequest code => Sys2Proof.Machine.execUnsupportedRequest code s
  | .ethRxFrame p frame fcsOk fecCorr fecUnc => Sys2Proof.Machine.execEthRxFrame p frame fcsOk fecCorr fecUnc s
  | .ringTailWrite p ring v => Sys2Proof.Machine.execRingTailWrite p ring v s
  | .ethTxDescriptor p => Sys2Proof.Machine.execEthTxDescriptor p s
  | .ethRun p v => Sys2Proof.Machine.execEthRun p v s
  | .ringSizeWrite p ring v => Sys2Proof.Machine.execRingSizeWrite p ring v s
  | .ethPEventClear p v => Sys2Proof.Machine.execEthPEventClear p v s
  | .cageResetRelease p => Sys2Proof.Machine.execCageResetRelease p s
  | .memUeAddrClear port v => Sys2Proof.Machine.execMemUeAddrClear port v s
  | .rtuErrClear v => Sys2Proof.Machine.execRtuErrClear v s
  | .pwrEventClear v => Sys2Proof.Machine.execPwrEventClear v s
  | .pwrCapWrite v => Sys2Proof.Machine.execPwrCapWrite v s
  | .operation w => Sys2Proof.Machine.execOperation w s
  | .clearFaults => Sys2Proof.Machine.execClearFaults s
  | .capability => Sys2Proof.Machine.execCapability s
  | .smbalertMask code w => Sys2Proof.Machine.execSmbalertMask code w s
  | .vinOvWarnLimit w => Sys2Proof.Machine.execVinOvWarnLimit w s
  | .vinUvWarnLimit w => Sys2Proof.Machine.execVinUvWarnLimit w s
  | .iinOcWarnLimit w => Sys2Proof.Machine.execIinOcWarnLimit w s
  | .statusByte => Sys2Proof.Machine.execStatusByte s
  | .statusWord => Sys2Proof.Machine.execStatusWord s
  | .statusInput => Sys2Proof.Machine.execStatusInput s
  | .statusTemperature => Sys2Proof.Machine.execStatusTemperature s
  | .statusMfrSpecific => Sys2Proof.Machine.execStatusMfrSpecific s
  | .readVin => Sys2Proof.Machine.execReadVin s
  | .readIin => Sys2Proof.Machine.execReadIin s
  | .readTemperature1 => Sys2Proof.Machine.execReadTemperature1 s
  | .readTemperature2 => Sys2Proof.Machine.execReadTemperature2 s
  | .readTemperature3 => Sys2Proof.Machine.execReadTemperature3 s
  | .readPin => Sys2Proof.Machine.execReadPin s
  | .pmbusRevision => Sys2Proof.Machine.execPmbusRevision s
  | .mfrId => Sys2Proof.Machine.execMfrId s
  | .mfrModel => Sys2Proof.Machine.execMfrModel s
  | .mfrRevision => Sys2Proof.Machine.execMfrRevision s
  | .mfrPowerCap w => Sys2Proof.Machine.execMfrPowerCap w s
  | .mfrReadFlowMain => Sys2Proof.Machine.execMfrReadFlowMain s
  | .mfrReadFlowOpt => Sys2Proof.Machine.execMfrReadFlowOpt s
  | .pmbusUnsupported code isWrite => Sys2Proof.Machine.execPmbusUnsupported code isWrite s
  | .setdasa addr => Sys2Proof.Machine.execSetdasa addr s
  | .tleArrCounterRead p c => Sys2Proof.Machine.execTleArrCounterRead p c s
  | .tleTurnWaitRead p => Sys2Proof.Machine.execTleTurnWaitRead p s
  | .tleSeqCounterRead p c => Sys2Proof.Machine.execTleSeqCounterRead p c s
  | .tleVecCounterRead p c => Sys2Proof.Machine.execTleVecCounterRead p c s
  | .tleStrmCounterRead p c => Sys2Proof.Machine.execTleStrmCounterRead p c s
  | .tleRtfCounterRead p c => Sys2Proof.Machine.execTleRtfCounterRead p c s
  | .tleThermCounterRead p c => Sys2Proof.Machine.execTleThermCounterRead p c s
  | .rtuCounterRead c => Sys2Proof.Machine.execRtuCounterRead c s
  | .memCounterRead port c => Sys2Proof.Machine.execMemCounterRead port c s
  | .gplCounterRead port c => Sys2Proof.Machine.execGplCounterRead port c s
  | .updCounterRead port c => Sys2Proof.Machine.execUpdCounterRead port c s
  | .optCounterRead q c => Sys2Proof.Machine.execOptCounterRead q c s
  | .fabCounterRead c => Sys2Proof.Machine.execFabCounterRead c s
  | .pwrCounterRead c => Sys2Proof.Machine.execPwrCounterRead c s
  | .ethCounterRead p c => Sys2Proof.Machine.execEthCounterRead p c s
  | .registerWrite addr v => Sys2Proof.Machine.execRegisterWrite addr v s
  | .standbySupply slotId => Sys2Proof.Machine.execStandbySupply slotId s
  | .unassignedOpcode p word => Sys2Proof.Machine.execUnassignedOpcode p word s
  | .failedAccess addr isWrite => Sys2Proof.Machine.execFailedAccess addr isWrite s
  | .combWorking aOk bOk power => Sys2Proof.Machine.execCombWorking aOk bOk power s
  | .ringAcquired seeds => Sys2Proof.Machine.execRingAcquired seeds s
  | .peerLight q c present => Sys2Proof.Machine.execPeerLight q c present s
  | .noLightTimeout q c => Sys2Proof.Machine.execNoLightTimeout q c s
  | .mapReady => Sys2Proof.Machine.execMapReady s
  | .linkChange p up => Sys2Proof.Machine.execLinkChange p up s
  | .pluggablePresence p present powerDeciwatt => Sys2Proof.Machine.execPluggablePresence p present powerDeciwatt s
  | .spdmConnection e => Sys2Proof.Machine.execSpdmConnection e s

end Sys2Proof.Machine
end

