-- ==== Sys2Proof/Machine/TileOps.lean ====
section
/-!
DEFINITION. The commands that are tile instructions, as what each presents to its tile's sequencer.
-/
namespace Sys2Proof.Machine

/-- What a tile instruction presents to its tile's sequencer; none for every other command. WAITT stands here as it issues with
its tally at the target, MARK as it issues without an enter request. -/
def tileOp (i : Instr) (s : State) : Option TileOp :=
  match i with
  | .nop p rsv => some (opNop p rsv s)
  | .alu p sd sa sb fn rsv => some (opAlu p sd sa sb fn rsv s)
  | .alui p sd sa fn rsv imm => some (opAlui p sd sa fn rsv imm s)
  | .li p sd pos rsv imm => some (opLi p sd pos rsv imm s)
  | .ld p sd sa size sx sp rsv off => some (opLd p sd sa size sx sp rsv off s)
  | .st p ss sa size rsv1 sp rsv off => some (opSt p ss sa size rsv1 sp rsv off s)
  | .br p sa sb cond rsv off => some (opBr p sa sb cond rsv off s)
  | .jal p sd rsv off => some (opJal p sd rsv off s)
  | .jr p sd sa rsv => some (opJr p sd sa rsv s)
  | .mark p en rsv => some (opMark p en rsv s)
  | .getv p sd sel rsv => some (opGetv p sd sel rsv s)
  | .fence p qmask rsv => some (opFence p qmask rsv s)
  | .halt p rsv => some (opHalt p rsv s)
  | .tset p t rsv value => some (opTset p t rsv value s)
  | .signal p kind rel sa t rsv value => some (opSignal p kind rel sa t rsv value s)
  | .waitt p t mk sv sa rsv value => some (opWaitt p t mk sv sa rsv value s)
  | .claim p sd sa list rsv off => some (opClaim p sd sa list rsv off s)
  | .claim2 p sd sa list rsv off => some (opClaim2 p sd sa list rsv off s)
  | .revoke p sd sa list rsv off => some (opRevoke p sd sa list rsv off s)
  | .lset p sd sa list rsv off => some (opLset p sd sa list rsv off s)
  | .lli p sd rel rsv value imm => some (opLli p sd rel rsv value imm s)
  | .ljmp p sd rel rsv value imm => some (opLjmp p sd rel rsv value imm s)
  | .lsignal p sd rel rsv value imm => some (opLsignal p sd rel rsv value imm s)
  | .xload p dx rs sa klen nlen rsv => some (opXload p dx rs sa klen nlen rsv s)
  | .mmul p dw rs dy ws sa sb pass dc rc rsv => some (opMmul p dw rs dy ws sa sb pass dc rc rsv s)
  | .dcfg p sx rsv => some (opDcfg p sx rsv s)
  | .acfg p sx rsv => some (opAcfg p sx rsv s)
  | .dstat p sx dst clr src rsv => some (opDstat p sx dst clr src rsv s)
  | .aload p da rs sa ilen jlen rsv => some (opAload p da rs sa ilen jlen rsv s)
  | .amul p dx rs dout ws sa sb pass dc rc rsv => some (opAmul p dx rs dout ws sa sb pass dc rc rsv s)
  | .xloadt p dx rs sa klen nlen rsv => some (opXloadt p dx rs sa klen nlen rsv s)
  | .dxmul p dw rs dy ws sa sb pass dc rc dmode mpid rsv => some (opDxmul p dw rs dy ws sa sb pass dc rc dmode mpid rsv s)
  | .dwmul p dd rs dg ws sa sb pass dc rc gs rsv => some (opDwmul p dd rs dg ws sa sb pass dc rc gs rsv s)
  | .lfmt p sd sl rsv => some (opLfmt p sd sl rsv s)
  | .vop p sd sa sb fn ty rnd cnt rsv => some (opVop p sd sa sb fn ty rnd cnt rsv s)
  | .vter p sd sa sb sc fn ty rnd cnt rsv => some (opVter p sd sa sb sc fn ty rnd cnt rsv s)
  | .vcvt p sd sa sc ts td rnd cnt rsv => some (opVcvt p sd sa sc ts td rnd cnt rsv s)
  | .vred p sd sa sb sl fn ty cnt rsv => some (opVred p sd sa sb sl fn ty cnt rsv s)
  | .vmp p sd sa sb sc mpid ti td rnd cnt rsv => some (opVmp p sd sa sb sc mpid ti td rnd cnt rsv s)
  | .vrand p sd sb mode cnt rsv => some (opVrand p sd sb mode cnt rsv s)
  | .seek p sa sub rsv => some (opSeek p sa sub rsv s)
  | .skey p sa sub rsv => some (opSkey p sa sub rsv s)
  | .gsave p sa sub rsv => some (opGsave p sa sub rsv s)
  | .grest p sa sub rsv => some (opGrest p sa sub rsv s)
  | .genSkip p sa sub rsv => some (opGenSkip p sa sub rsv s)
  | .dmake p d sa rsv => some (opDmake p d sa rsv s)
  | .dbase p d sa rsv => some (opDbase p d sa rsv s)
  | .swaph p d rsv => some (opSwaph p d rsv s)
  | .sarm p ds rs dd sa sb sc te t rsv => some (opSarm p ds rs dd sa sb sc te t rsv s)
  | .copy p ds rs dd ws sa sb sc tr rsv => some (opCopy p ds rs dd ws sa sb sc tr rsv s)
  | .rsel p ds rs sk sa sc rsv => some (opRsel p ds rs sk sa sc rsv s)
  | .rassign p sc ev t rsv => some (opRassign p sc ev t rsv s)
  | .gather p ds rs dd ws da ra sc sa sb gw rnd rsv => some (opGather p ds rs dd ws da ra sc sa sb gw rnd rsv s)
  | .scatter p ds rs dd ws da ra sc sa sb gw rnd rsv => some (opScatter p ds rs dd ws da ra sc sa sb gw rnd rsv s)
  | .combine p ds rs dd ws da ra sc sa sb gw rnd rsv => some (opCombine p ds rs dd ws da ra sc sa sb gw rnd rsv s)
  | .ggrad p ds rs dd ws da ra sc sa sb gw rnd rsv => some (opGgrad p ds rs dd ws da ra sc sa sb gw rnd rsv s)
  | .atom p fn sd sa sb sc rel rsv => some (opAtom p fn sd sa sb sc rel rsv s)
  | .gpool p fn dt dd sb rnd te t rsv => some (opGpool p fn dt dd sb rnd te t rsv s)
  | .gsrow p fn dg dr sb so rnd te t rsv => some (opGsrow p fn dg dr sb so rnd te t rsv s)
  | .updt p grp sa sb src te t rsv => some (opUpdt p grp sa sb src te t rsv s)
  | .rscat p sd sa te t rsv => some (opRscat p sd sa te t rsv s)
  | .agather p sd sa te t rsv => some (opAgather p sd sa te t rsv s)
  | .a2a p sd sa te t rsv => some (opA2a p sd sa te t rsv s)
  | .bcast p sd sa te t rsv => some (opBcast p sd sa te t rsv s)
  | .srow p sd sa te t rsv => some (opSrow p sd sa te t rsv s)
  | .barrier p sd sa te t rsv => some (opBarrier p sd sa te t rsv s)
  | .put p sd sa te t rsv => some (opPut p sd sa te t rsv s)
  | .get p sd sa te t rsv => some (opGet p sd sa te t rsv s)
  | .fsendArm p ws sa sb rsv => some (opFsendArm p ws sa sb rsv s)
  | .fsendSkip p ws sa sb rsv => some (opFsendSkip p ws sa sb rsv s)
  | _ => none

/-! ### The queues (R149, R150) -/

/-- The machine as an instruction that waits in a queue saw it at its issue: its operands, and the entries issued before it. -/
def State.atIssue (s : State) (p : TileId) (w : Waiting) : State :=
  s.modTile p fun t =>
    { t with regs := w.regs, handles := w.handles, pc := w.pc, issueNo := w.issueNo - 1, waiting := t.waiting.takeWhile (· != w) }

/-- An instruction that waits in a queue starts if it can (R150): the checks that read memory, then its effect. (DESIGN CHOICE,
log 12). -/
def State.tryStart (s : State) (p : TileId) (w : Waiting) : State :=
  let before := s.atIssue p w
  match tileOp w.instr before with
  | none => s
  | some x =>
    if (before.tile p).mustWait x then s
    else
      let s := s.modTile p fun t => { t with waiting := t.waiting.erase w }
      match x.checks.find? fun c => c.bad && c.late with
      | some c => (s.noteCheck p c).programFaultAt p c.cause (w.pc.truncate 48) x.word
      | none => before.nameHwFault (x.effect s) x

/-- Each entry of a tile's queues in turn, in issue order, as long as it is there. -/
def State.settleTileQueues (s : State) (p : TileId) : State :=
  (s.tile p).waiting.foldl (fun s w => if (s.tile p).waiting.contains w then s.tryStart p w else s) s

/-- The tiles with an instruction that has not started. -/
def State.waitingTiles (s : State) : List TileId :=
  s.tiles.filterMap fun x => if h : x.1 < 1152 then (if x.2.waiting.isEmpty then none else some ⟨x.1, h⟩) else none

/-- The instructions that wait in the tiles' queues start as soon as they can. (DESIGN CHOICE, log 2, log 12). -/
def State.settleQueues (s : State) : State := if s.powered then s.waitingTiles.foldl settleTileQueues s else s

end Sys2Proof.Machine
end

