-- ==== Sys2Proof/Machine/Step.lean ====
section
/-!
DEFINITION. One step: the command at the front of the queue is taken and runs on the state with the queue's rest. On an empty
queue the block settles: instructions in the tiles' queues start, and its interrupt controllers follow the levels of their sources
(log 2, log 12, log 106).
-/
namespace Sys2Proof.Machine

/-- Rests on a choice of the model (DESIGN CHOICE, log 2, log 12; PRESUMED, log 106). -/
def step (s : State) : Host.Outcome State Fault Refusal :=
  match s.pending with
  | [] => .next s.settleQueues.settleIrq
  | c :: l => exec c { s with pending := l }

/-- The state with the command of a word at the front of its queue: no word spells a command. (DESIGN CHOICE, log 8). -/
def State.withFetchWord (s : State) (nbits w : Nat) : State :=
  match decodeTableWord nbits w with
  | some c => { s with pending := c :: s.pending }
  | none => s

end Sys2Proof.Machine
end

