-- ==== Sys2Proof/Safety.lean ====
section
/-!
DEFINITION. The terms in which the statements speak: when the sequencer issues an instruction, what no command changes, what every
step keeps, and the tables of R155 and BR written on integers.
-/
namespace Sys2Proof.Machine

/-! ### Issue -/

/-- The sequencer of tile `p` issues at a legal PC, and none of the registers that an instruction names has a write pending
(R149, R152). -/
def State.ready (s : State) (p : TileId) (regs : List (BitVec 5)) : Prop :=
  (s.tile p).state = .issuing ∧ s.pcLegal (s.tile p).pc 8 = true ∧ ∀ r ∈ regs, (s.tile p).isPending r = false

/-- The sequencer of `x.p` looks at the instruction. -/
def State.looksAt (s : State) (x : TileOp) : Prop := s.ready x.p x.reads

/-- The instruction issues and starts: no check fails, nothing holds it, and its queue has room and no earlier work. -/
def State.issues (s : State) (x : TileOp) : Prop :=
  s.looksAt x ∧ (∀ c ∈ x.checks, c.bad = false) ∧ x.held = false ∧ s.queueFull x = false ∧ (s.tile x.p).mustWait x = false

/-- The SMEM queue has room, and an access that enters it starts at once. -/
def Tile.smemReady (t : Tile) : Prop := t.smemStalled = false ∧ t.smemFull = false ∧ ∀ w ∈ t.waiting, w.port = true

/-- The same of the PORT queue of tile `p`. -/
def State.portReady (s : State) (p : TileId) : Prop :=
  s.portStalled p = false ∧ s.portFull p = false ∧ ∀ w ∈ (s.tile p).waiting, w.port = false

/-! ### What the statements compare -/

/-- The bytes of memory outside a list of addresses read as before. -/
def State.sameMemBut (s t : State) (addrs : List Nat) : Prop := ∀ a, a ∉ addrs → t.peek a = s.peek a

/-- What no command changes: the waiting commands, the part and its fuse map, the revoked keys. -/
structure Untouched (s t : State) : Prop where
  pending : t.pending = s.pending
  part : t.part = s.part
  fuse : t.nv.fuse = s.nv.fuse
  revoked : t.nv.revoked = s.nv.revoked

/-- Everything sparse is in its canonical form, and the logical numbering is by ascending physical index (R18). -/
structure State.Inv (s : State) : Prop where
  mem : s.memWf = true
  totals : Sparse.wf none s.rawTotals = true
  flash : Sparse.wf flashDefault s.nv.flash = true
  tiles : Sparse.wf Tile.reset s.tiles = true
  pairs : Sparse.wf Pair.reset s.light.pairs = true
  map : Sparse.wf MapEntry.reset s.fabric.map = true
  routers : Sparse.wf Router.reset s.mesh.routers = true
  numbering : s.l2p.Pairwise fun p q => p.1 < q.1

/-- The commands by which blocks act that are unpowered in standby and held in reset while RESET_N is low (R420, R443). -/
def needsPower : Instr → Bool
  | .tuneFeedforward .. | .ringLockUpdate .. | .codeword .. | .pairRetry .. | .noLightTimeout .. | .peerLight ..
  | .ringAcquired .. | .marginEstimate .. | .tapPowerDrop .. | .spareLocked | .combFail .. | .forceWarm | .forceSwitch
  | .combWorking .. | .optRun .. | .healthEval | .secureNow | .hmnRun .. | .ddrRead .. | .ddrWrite .. | .patrolScrub ..
  | .rankRetrain .. | .commitMessage .. | .flashGo | .eraseOnly | .maintenanceCommand .. | .enrol .. | .measure ..
  | .svnCommit .. | .meshPruneReq .. | .serviceTreeTimeout .. | .meshPacket .. | .discoverySend .. | .discoveryFrame ..
  | .mapReady | .join .. | .confirm .. | .graftRelay .. | .noroute .. | .abort .. | .stripe .. | .stripeAck .. | .seal ..
  | .inv .. | .dataFrame .. | .controlFrame .. | .clockFault .. | .pwrCapWrite .. | .spdmConnection .. | .ringTailWrite ..
  | .ethRun .. | .ringSizeWrite .. | .cageResetRelease .. | .linkChange .. | .start .. | .cancel .. | .hardwareFault ..
  | .hstTallyWrite .. | .tleSignalWrite .. | .hstRevokeGo .. | .registerWrite .. | .failedAccess .. | .transportData ..
  | .grant .. | .skipMessage .. | .end_ .. | .limiterUpdate .. | .thermalSample .. | .stretchEvent .. | .moduleThermalShutdown ..
  | .dimmSensorRead .. | .firmwareEntry | .meshOpen .. => true
  | _ => false

/-! ### Tables of the scalar instructions -/

/-- `v` is the result of function `fn` on `a` and `b`: the table of R155. -/
def AluRule (fn : Nat) (a b v : W64) : Prop :=
  match fn with
  | 0 => v.toNat = (a.toNat + b.toNat) % 2 ^ 64
  | 1 => (v.toNat + b.toNat) % 2 ^ 64 = a.toNat
  | 2 => ∀ i, i < 64 → v.getLsbD i = (a.getLsbD i && b.getLsbD i)
  | 3 => ∀ i, i < 64 → v.getLsbD i = (a.getLsbD i || b.getLsbD i)
  | 4 => ∀ i, i < 64 → v.getLsbD i = (a.getLsbD i ^^ b.getLsbD i)
  | 5 => v.toNat = a.toNat * 2 ^ (b.toNat % 64) % 2 ^ 64
  | 6 => v.toNat = a.toNat / 2 ^ (b.toNat % 64)
  | 7 => v.toInt = a.toInt / 2 ^ (b.toNat % 64)
  | 8 => v.toNat = a.toNat * b.toNat % 2 ^ 64
  | 9 => v.toNat = a.toNat * b.toNat / 2 ^ 64
  | 10 => v.toInt = min a.toInt b.toInt
  | 11 => v.toInt = max a.toInt b.toInt
  | 12 => v.toNat = min a.toNat b.toNat
  | 13 => v.toNat = max a.toNat b.toNat
  | 14 => v.toNat = if a.toInt < b.toInt then 1 else 0
  | 15 => v.toNat = if a.toNat < b.toNat then 1 else 0
  | _ => False

/-- The condition `cond` of BR on `a` and `b`. -/
def BrRule (cond : Nat) (a b : W64) : Prop :=
  match cond with
  | 0 => a = b
  | 1 => a ≠ b
  | 2 => a.toInt < b.toInt
  | 3 => b.toInt ≤ a.toInt
  | 4 => a.toNat < b.toNat
  | 5 => b.toNat ≤ a.toNat
  | 6 => a.toNat % 2 ^ 32 = 0xFFFFFFFF
  | _ => a.toNat % 2 ^ 32 ≠ 0xFFFFFFFF

/-- `n` is the signed number of `k` bytes that the unsigned number `u` spells. -/
def SignedOf (k u : Nat) (n : Int) : Prop :=
  n = if u < 2 ^ (8 * k - 1) then (u : Int) else (u : Int) - 2 ^ (8 * k)

/-! ### Numbers -/
end Sys2Proof.Machine
namespace Sys2Proof

/-- The number that a finite value is; 0 for the others, of which no statement uses it. -/
def FVal.rat : FVal → ℚ
  | .fin neg m e => (if neg then -1 else 1) * (m : ℚ) * (2 : ℚ) ^ e
  | _ => 0

end Sys2Proof
namespace Sys2Proof.Machine

/-! ### Array instructions -/

/-- The bytes that a store of every element of a window reaches: its codes and the scales of their blocks. -/
def Window.touched (w : Window) (p : TileId) (t : EType) : List Nat :=
  w.cells.flatMap fun c =>
    w.elemBytes p t c.1 c.2 ++ w.scaleBytes p t c.1 c.2

/-- The bytes that a multiply stores to: its output window and its selection output. -/
def DrainShape.stores (s : State) (p : TileId) (h : DrainShape) : List Nat :=
  (match h.out with
    | some { win := some w, .. } => match s.etype w.desc.etype with
      | some t => w.touched p t
      | none => []
    | _ => []) ++
  match h.sel with
  | some o => s.operandBytes p o
  | none => []

/-- What an engine instruction that stores to `dests` leaves of memory and of the tiles: every other byte, every other tile, and of tile
`p` the registers, handles, slots, claims, stationary blocks and latched records; the sequencer goes on at the next instruction. -/
structure StoresInto (s t : State) (p : TileId) (dests : List Nat) : Prop where
  memory : s.sameMemBut t dests
  others : ∀ q, q ≠ p → t.tile q = s.tile q
  pc : (t.tile p).pc = (s.tile p).pc + 8
  going : (t.tile p).state = .issuing ∧ (t.tile p).fault = (s.tile p).fault
  regs : (t.tile p).regs = (s.tile p).regs
  handles : (t.tile p).handles = (s.tile p).handles
  slots : (t.tile p).rslots = (s.tile p).rslots ∧ (t.tile p).wslots = (s.tile p).wslots
  items : (t.tile p).claims = (s.tile p).claims ∧ (t.tile p).held = (s.tile p).held
  blocks : (t.tile p).stationary = (s.tile p).stationary ∧ (t.tile p).adapter = (s.tile p).adapter
  records : (t.tile p).mainCfg = (s.tile p).mainCfg ∧ (t.tile p).adpCfg = (s.tile p).adpCfg

/-- The same with every tally kept and the rest of the module untouched but for the counter of free values and the note of which
addresses hold a chain's totals. -/
structure MultipliesInto (s t : State) (p : TileId) (dests : List Nat) : Prop extends StoresInto s t p dests where
  module : t = { s with mem := t.mem, tiles := t.tiles, freeCtr := t.freeCtr, rawTotals := t.rawTotals }
  tallies : (t.tile p).tallies = (s.tile p).tallies

/-- The window over the whole view of a handle's descriptor, as a destination. -/
def wholeDest (t : Tile) (h : BitVec 4) (d : Desc) : Window := ⟨d, h, d.pair && !(t.handle h).half, 0, 0, d.view0, d.view1⟩

/-- The block that a load latches: the descriptor's type and, in cell (n, k), the element at `pos n k` of the window. -/
def LoadsBlock (s : State) (p : TileId) (b : Stationary) (w : Window) (klen nlen : Nat) (pos : Nat → Nat → Nat × Nat) : Prop :=
  b.etype = w.desc.etype ∧ b.klen = klen ∧ b.nlen = nlen ∧
    ∀ t, s.etype w.desc.etype = some t → ∀ n, n < nlen → ∀ k, k < klen →
      b.at n k = s.rdElem p t w (w.a + (pos n k).1) (w.b + (pos n k).2)

/-! ### The assigner and the update engines -/

/-- What the assigner makes of the choice records of a call, in token order (R239, R240). -/
def State.assignment (s : State) (e : Image) (b : CallBlock) : Assign :=
  ((List.range b.t).map (s.choiceOf e b)).zipIdx.foldl (fun a x => match x.1 with
    | some y => assignToken (Route.cap e b.t) (Route.k e) x.2 y.1 y.2 a
    | none => a) ⟨List.replicate (Route.nexp e) 0, List.replicate (Route.nexp e) 0, [], []⟩

/-- The first bit of a unit's working copy, and where the scales of its blocks begin (R272, R469). -/
def woutBit (u : Image) (g i : Nat) (t : EType) : Nat :=
  8 * Upd.wout u g + if Upd.rows u g = true then 8 * (i * Upd.wpitch u g) else 512 * i * t.width
def woutScale (u : Image) (g i : Nat) (t : EType) : Nat :=
  Upd.wout u g + Upd.woutBytes u g t.width + (woutBit u g i t / 8 - Upd.wout u g) / (t.block * t.width / 8) * t.scaleBytes

/-- The bytes of a unit's working copy and of its scales, as intervals. -/
def woutAreas (u : Image) (g i : Nat) (t : EType) : List (Nat × Nat) :=
  [(woutBit u g i t / 8, (Upd.elems u g * t.width + 7) / 8),
    (woutScale u g i t, if t.block = 0 then 0 else (Upd.elems u g + t.block - 1) / t.block * t.scaleBytes)]

def woutTouched (u : Image) (g i : Nat) (t : EType) : List Nat :=
  (woutAreas u g i t).flatMap fun a => (List.range a.2).map (a.1 + ·)

/-- What an update of a unit stores to: the unit in each local tensor, its stamp and its working copy. -/
def unitAreas (u : Image) (g i : Nat) (t : EType) : List (Nat × Nat) :=
  (Upd.locals u g).map (fun a => (State.unitAddr u g a i, Upd.unitBytes u g)) ++ (Upd.stamps u g + 4 * i, 4) :: woutAreas u g i t

/-- `y` is `x` caught up over Δ skipped steps: the table of R274 with the powers of R276. -/
def CatchUpRule (a : OptArgs) (x y : OptElem) : Prop :=
  let fade := updPow (FVal.sub FVal.one (FVal.mul a.eta a.wd)) a.delta
  (a.delta = 0 → y = x) ∧
  (0 < a.delta → y.w = mul64 x.w fade ∧ y.m1 = mul64 x.m1 (updPow (if a.opt = 2 then a.b2 else a.b1) a.delta) ∧
    y.m2 = if a.opt = 0 then mul64 x.m2 (updPow a.b2 a.delta) else x.m2)

/-- `y` is the element `x` after one update with gradient `g`: the table of R274, or the micro-program of R277. -/
def UpdateRule (a : OptArgs) (x : OptElem) (g : FVal) (y : OptElem) : Prop :=
  match a.mp with
  | some r =>
    let e := (mpRun r ([g, x.w, x.m1, x.m2, .fin false a.delta 0, .fin false a.t 0, a.eta].map rne32) []).e
    y = ⟨e.getD 1 FVal.zero, e.getD 2 FVal.zero, e.getD 3 FVal.zero⟩
  | none => ∃ c, CatchUpRule a x c ∧
    let keep := mul64 c.w (sub64 FVal.one (mul64 a.eta a.wd))
    match a.opt with
    | 0 => y.m1 = add64 (mul64 a.b1 c.m1) (mul64 (sub64 FVal.one a.b1) g) ∧
      y.m2 = add64 (mul64 a.b2 c.m2) (mul64 (sub64 FVal.one a.b2) (mul64 g g)) ∧
      y.w = sub64 keep (div64 (mul64 a.eta (div64 y.m1 (sub64 FVal.one (updPow a.b1 a.t))))
        (add64 (sqrt64 (div64 y.m2 (sub64 FVal.one (updPow a.b2 a.t)))) a.eps))
    | 1 => y.m1 = add64 (mul64 a.b1 c.m1) g ∧
      y.w = sub64 keep (mul64 a.eta (if a.nesterov = true then add64 g (mul64 a.b1 y.m1) else y.m1))
    | 2 => y.m1 = add64 (mul64 a.b2 c.m1) (mul64 (sub64 FVal.one a.b2) g) ∧
      y.w = sub64 keep (mul64 a.eta (signOf (add64 (mul64 a.b1 c.m1) (mul64 (sub64 FVal.one a.b1) g))))
    | _ => True

/-! ### Vector instructions -/

/-- What a vector instruction of tile `p` leaves: the machine but for that tile, the bytes `dests` and the counter of free values; and
of the tile all but its lanes and vector counters. -/
structure VectorInto (s t : State) (p : TileId) (dests : List Nat) : Prop where
  module : t = { s with mem := t.mem, tiles := t.tiles, freeCtr := t.freeCtr }
  others : ∀ q, q ≠ p → t.tile q = s.tile q
  memory : s.sameMemBut t dests
  tile : t.tile p = { (s.tile p).advance 8 true with lanes := (t.tile p).lanes, vec := (t.tile p).vec }

/-- The bytes of `n` elements of `w` bits at a vector operand in the SRAM of tile `p`. -/
def vecDest (p : TileId) (v : W64) (w n : Nat) : List Nat := ((vecOperand v).allBytes w n).map (sramBase p.1 + ·)

end Sys2Proof.Machine
end

