-- ==== Sys2Proof/Certificates/Slice0/Obligations.lean ====
section
/-!
DEFINITION. The statements for the provers, by the chapters of the spec.
-/
section Statements
open Sys2Proof Sys2Proof.Machine

/-! ### The machine as a whole -/

/-- The command at the front of the queue runs on the state with the queue's rest; on an empty queue the block idles: only the
instructions that wait in the tiles' queues start, and its interrupt controllers follow the levels of their sources (the model's choice,
log 2, log 12 and log 106). -/
def Obligations.StepRunsTheFrontCommand : Prop :=
  (∀ (c : Instr) (l : List Instr) (s : State), s.pending = c :: l → step s = exec c { s with pending := l }) ∧
  (∀ s : State, s.pending = [] → step s = .next s.settleQueues.settleIrq) ∧
  (∀ s : State, s.powered = false ∨ (∀ p, (s.tile p).waiting = []) → s.settleQueues = s)

/-- The state after module reset meets the invariant that every step keeps; registers whose tables give a reset value read it: the launch
status, PWR_CAP and PWR_CAP_EFF, OPT_CTL, OPT_PAIR_STATE and CMB_MARGIN (R13). -/
def Obligations.ResetMeetsTheInvariant : Prop :=
  State.reset.Inv ∧ State.reset.pending = [] ∧ ∀ (q : PlaneId) (c : PairId),
    let reads (a v : Nat) : Prop := State.reset.readRegister a = BitVec.ofNat 32 v
    reads 0x7F00_0000_1004 0 ∧ reads 0x7F00_0020_0014 15000 ∧ reads 0x7F00_0020_0018 15000 ∧
    reads (0x7F00_0200_0000 + 0x1_0000 * q.1) 2 ∧ reads (0x7F00_0200_0024 + 0x1_0000 * q.1) 0x00FFFF00 ∧
    reads (0x7F00_0280_0180 + 4 * c.1) 0xFF

/-- Every step keeps the canonical forms of memory, flash and tiles, and the logical numbering ascends (R18). -/
def Obligations.StepKeepsTheInvariant : Prop :=
  ∀ s t : State, s.Inv → step s = .next t → t.Inv

/-- No command is refused; the only fault is that of a DDR access outside fitted DDR, and it stops DDR_READ, DDR_WRITE and PATROL_SCRUB
there (R452; the stop is the model's, log 7). -/
def Obligations.OnlyUnfittedDdrFaults : Prop :=
  (∀ (c : Instr) (s : State) (r : Refusal), exec c s ≠ .refused r) ∧
  (∀ (c : Instr) (s : State) (f : Fault), exec c s = .fault f → f = .notFittedDdr ∧
    ∃ addr : BitVec 48, s.inDdr (addr.toNat / 64 * 64) 64 = false ∧
      ((∃ e r, c = .ddrRead addr e r) ∨ (∃ d m, c = .ddrWrite addr d m) ∨ ∃ e, c = .patrolScrub addr e))

/-- In standby and while RESET_N is low no command that needsPower lists has an effect: those by which blocks act or are acted on from
outside. A command that it leaves out is the standby controller's, or finds its block as reset left it (R420, R443). -/
def Obligations.BlocksRestUnpowered : Prop :=
  ∀ (c : Instr) (s : State), needsPower c = true → s.powered = false → exec c s = .next s

/-- No command changes the waiting commands behind it, the part, its fuse map or the revoked keys. No command lowers the minimum SVN or
replaces an enrolled owner (R401, R404). -/
def Obligations.CommandsKeepQueuePartAndFuses : Prop :=
  (∀ (c : Instr) (s t : State), exec c s = .next t → Untouched s t) ∧
  (∀ (c : Instr) (s t : State), exec c s = .next t →
    s.nv.minSvn.toNat ≤ t.nv.minSvn.toNat ∧ (s.nv.owner ≠ none → t.nv.owner = s.nv.owner))

/-! ### Tile programs (chapter 05) -/

/-- ALU and ALUI write the table's result to s[sd] and change nothing else but the sequencer's own PC and counts (R155). An unassigned fn
is cause 0x01, a nonzero reserved field cause 0x02 and a shift immediate outside 0 to 63 cause 0x0B. -/
def Obligations.AluWritesTheTablesResult : Prop :=
  (∀ (s : State) (p : TileId) (sd sa sb fn : BitVec 5) (imm : BitVec 32), s.Inv → fn.toNat < 16 →
    (s.ready p [sd, sa, sb] → ∃ v, AluRule fn.toNat ((s.tile p).reg sa) ((s.tile p).reg sb) v ∧
      exec (.alu p sd sa sb fn 0) s = .next (s.setTile p (((s.tile p).advance 8 false).setReg sd v))) ∧
    (s.ready p [sd, sa] → (fn.toNat = 5 ∨ fn.toNat = 6 ∨ fn.toNat = 7 → imm.toNat < 64) →
      ∃ v, AluRule fn.toNat ((s.tile p).reg sa) (imm.signExtend 64) v ∧
        exec (.alui p sd sa fn 0 imm) s = .next (s.setTile p (((s.tile p).advance 8 false).setReg sd v)))) ∧
  (∀ (s : State) (p : TileId) (sd sa sb fn : BitVec 5) (rsv : BitVec 38) (rsv' : BitVec 11) (imm : BitVec 32),
    (s.ready p [sd, sa, sb] →
      (16 ≤ fn.toNat → exec (.alu p sd sa sb fn rsv) s = .next (s.programFault p 0x01 (Layout.alu sd sa sb fn rsv))) ∧
      (fn.toNat < 16 → rsv ≠ 0 →
        exec (.alu p sd sa sb fn rsv) s = .next (s.programFault p 0x02 (Layout.alu sd sa sb fn rsv)))) ∧
    (s.ready p [sd, sa] →
      (16 ≤ fn.toNat → exec (.alui p sd sa fn rsv' imm) s = .next (s.programFault p 0x01 (Layout.alui sd sa fn rsv' imm))) ∧
      (fn.toNat < 16 → rsv' ≠ 0 →
        exec (.alui p sd sa fn rsv' imm) s = .next (s.programFault p 0x02 (Layout.alui sd sa fn rsv' imm))) ∧
      (5 ≤ fn.toNat → fn.toNat ≤ 7 → rsv' = 0 → 64 ≤ imm.toNat →
        exec (.alui p sd sa fn rsv' imm) s = .next (s.programFault p 0x0B (Layout.alui sd sa fn rsv' imm)))))

/-- s0 reads zero and discards writes; every other scalar register reads what was last written, and a write changes no other. NOP, LI, LLI
and GETV: what they write, and nothing else (R157); GETV 10, the running count of cycles, is free (log 6). -/
def Obligations.ScalarRegistersAndConstants : Prop :=
  (∀ (t : Tile) (r r' : BitVec 5) (v : W64),
    t.reg 0 = 0 ∧ t.setReg 0 v = t ∧ (t.setReg r v).reg r' = if r' = r ∧ r ≠ 0 then v else t.reg r') ∧
  (∀ (s : State) (p : TileId) (sd sel : BitVec 5) (imm : BitVec 32) (imm64 : BitVec 64), s.Inv →
    let t := s.tile p
    (s.ready p [] → exec (.nop p 0) s = .next (s.setTile p (t.advance 8 false))) ∧
    (s.ready p [sd] → ∃ v : W64, v.toInt = imm.toInt ∧
      exec (.li p sd 0 0 imm) s = .next (s.setTile p ((t.advance 8 false).setReg sd v))) ∧
    (s.ready p [sd] → ∃ v : W64, v.toNat = imm.toNat * 2 ^ 32 + (t.reg sd).toNat % 2 ^ 32 ∧
      exec (.li p sd 1 0 imm) s = .next (s.setTile p ((t.advance 8 false).setReg sd v))) ∧
    (s.ready p [sd] → s.pcLegal t.pc 16 = true →
      exec (.lli p sd false 0 0 imm64) s = .next (s.setTile p ((t.advance 16 false).setReg sd imm64))) ∧
    (∀ j, s.job = some j → s.ready p [sd] → sel.toNat ≤ 9 →
      exec (.getv p sd sel 0) s = .next (s.setTile p ((t.advance 8 false).setReg sd (BitVec.ofNat 64
        ([s.logicalOf p, p.1, s.l2p.length, j.first, j.count, j.param, j.user.toNat, j.userLen.toNat, j.jobtag.toNat,
          j.seq.toNat].getD sel.toNat 0))))) ∧
    (s.ready p [sd] → ∃ v, exec (.getv p sd 10 0) s =
      .next { s.setTile p ((t.advance 8 false).setReg sd v) with freeCtr := s.freeCtr + 1 }))

/-- BR, JAL, JR and LJMP: the condition table, the targets and the link register. -/
def Obligations.BranchesSetTheirTarget : Prop :=
  ∀ (s : State) (p : TileId) (sd sa sb : BitVec 5) (cond : BitVec 3) (off : BitVec 32) (imm : BitVec 64) (rel : Bool)
    (value : BitVec 32), s.Inv →
    let t := s.tile p
    let target : W64 := BitVec.ofInt 64 (t.pc.toInt + 8 * off.toInt)
    (s.ready p [sa, sb] → (6 ≤ cond.toNat → sb = 0) →
      (BrRule cond.toNat (t.reg sa) (t.reg sb) →
        exec (.br p sa sb cond 0 off) s = .next (s.setTile p { t.advance 8 false with pc := target })) ∧
      (¬ BrRule cond.toNat (t.reg sa) (t.reg sb) →
        exec (.br p sa sb cond 0 off) s = .next (s.setTile p (t.advance 8 false)))) ∧
    (s.ready p [sd] →
      exec (.jal p sd 0 off) s = .next (s.setTile p { (t.advance 8 false).setReg sd (t.pc + 8) with pc := target })) ∧
    (s.ready p [sd, sa] →
      exec (.jr p sd sa 0) s = .next (s.setTile p { (t.advance 8 false).setReg sd (t.pc + 8) with pc := t.reg sa })) ∧
    (s.ready p [sd] → s.pcLegal t.pc 16 = true →
      exec (.ljmp p sd rel 0 value imm) s =
        .next (s.setTile p { (t.advance 16 false).setReg sd (t.pc + 16) with pc := imm }))

/-- Which address an LD or ST reaches, and cause 0x03 for every other (R156). LD writes the little-endian value, zero- or sign-extended,
and changes no memory; a poisoned access reads zero and takes the path of R258, with the LD's PC and first word in the fault record
(R173). ST stores the low bytes of s[ss] at the address its operands give, least significant first, and changes no other byte; what a
store into a list's counter word leaves there, which R161 forbids, is free (log 95). -/
def Obligations.LoadsAndStoresReachTheirBytes : Prop :=
  (∀ (s : State) (p : TileId) (r sa : BitVec 5) (off : BitVec 32) (size : BitVec 2) (sx : Bool) (x : Nat),
    let base := (s.tile p).reg sa
    let a : Int := (base.toInt + off.toInt) % 2 ^ 64
    let n : Nat := 2 ^ size.toNat
    (ldStAddr s p false base off size.toNat = some x ↔
      a % (n : Int) = 0 ∧ a + (n : Int) ≤ 0x02800000 ∧ (x : Int) = sramBase p.1 + a) ∧
    (ldStAddr s p true base off size.toNat = some x ↔
      a % (n : Int) = 0 ∧ (x : Int) = a ∧
        (x + n ≤ s.part.ddrEnd ∨ ∃ q o, sramWindow x = some (q, o) ∧ o + n ≤ 0x02800000 ∧ s.inSet q = true)) ∧
    (∀ sp, s.ready p [r, sa] → ldStAddr s p sp base off size.toNat = none →
      exec (.ld p r sa size sx sp 0 off) s = .next (s.programFault p 0x03 (Layout.ld r sa size sx sp 0 off)) ∧
      exec (.st p r sa size 0 sp 0 off) s = .next (s.programFault p 0x03 (Layout.st r sa size 0 sp 0 off)))) ∧
  (∀ (s : State) (p : TileId) (sd sa : BitVec 5) (size : BitVec 2) (sx sp : Bool) (off : BitVec 32) (a : Nat), s.Inv →
    s.ready p [sd, sa] → (s.tile p).smemReady → ldStAddr s p sp ((s.tile p).reg sa) off size.toNat = some a →
    ∃ v : W64,
      (sx = false → v.toNat = s.rdNat a (2 ^ size.toNat)) ∧
      (sx = true → SignedOf (2 ^ size.toNat) (s.rdNat a (2 ^ size.toNat)) v.toInt) ∧
      exec (.ld p sd sa size sx sp 0 off) s =
        .next (s.nameHwFault ((s.setTile p (((s.tile p).advance 8 false).setReg sd v)).readByTile p
          ((List.range (2 ^ size.toNat)).map (a + ·))) (opLd p sd sa size sx sp 0 off s))) ∧
  (∀ (s : State) (p : TileId) (ss sa : BitVec 5) (size : BitVec 2) (sp : Bool) (off : BitVec 32) (a : Nat), s.Inv →
    s.ready p [ss, sa] → (s.tile p).smemReady → ldStAddr s p sp ((s.tile p).reg sa) off size.toNat = some a →
    s.meetsCounter a (2 ^ size.toNat) = false →
    ∃ t, exec (.st p ss sa size 0 sp 0 off) s = .next t ∧
      t = { s.setTile p ((s.tile p).advance 8 true) with mem := t.mem, poisoned := t.poisoned } ∧
      (∀ i, i < 2 ^ size.toNat → (t.peek (a + i)).toNat = ((s.tile p).reg ss).toNat / 256 ^ i % 256) ∧
      s.sameMemBut t ((List.range (2 ^ size.toNat)).map (a + ·)) ∧ ∀ l ∈ t.poisoned, l ∈ s.poisoned)

/-- Tallies: TSET sets one; an addition wraps modulo 2^32; other tallies and tiles keep their value (R158, R159). SIGNAL and LSIGNAL put
one signal on its way to the target that R158 names; with rel = 0 it is sent at issue; an invalid target is cause 0x05. A rel = 1 signal
leaves once every instruction issued before it has completed, behind the signals already sent; the oldest signal to memory adds to its
64-bit counter, after the tile's earlier memory accesses, the oldest one to a host tally adds there and completes the launch by R147. -/
def Obligations.SignalsReachTheirTarget : Prop :=
  (∀ (s : State) (p q : TileId) (t k : BitVec 6) (value : BitVec 32), s.Inv →
    (s.ready p [] → exec (.tset p t 0 value) s =
      .next (s.setTile p (((s.tile p).advance 8 true).setTally t value))) ∧
    ((((s.tile p).setTally t value).tally k) = if k = t then value else (s.tile p).tally k) ∧
    (∀ g l, (s.tile p).signals = g :: l → g.sent = true → g.target = .tally q k →
      ∃ u, exec (.tallyAdd p q) s = .next u ∧
        ((u.tile q).tally k).toNat = (((s.tile q).tally k).toNat + g.value.toNat) % 2 ^ 32 ∧
        (u.tile p).signals = l ∧ (∀ r, r ≠ p → r ≠ q → u.tile r = s.tile r) ∧ u = { s with tiles := u.tiles })) ∧
  (∀ (s : State) (p : TileId) (sa : BitVec 5) (t : BitVec 6) (rel : Bool) (kind : BitVec 2) (value : BitVec 32) (imm : BitVec 64),
    s.Inv →
    let u := s.tile p
    let v := (u.reg sa).toNat
    let room := u.smemFull = false
    let sent (g : SignalTarget) := s.setTile p { u.advance 8 true with
      signals := u.signals ++ [⟨g, value, !rel, u.issueNo + 1⟩] }
    (s.ready p [sa] →
      (sa = 0 → room → exec (.signal p 0 rel sa t 0 value) s = .next (sent (.tally p t))) ∧
      (∀ q, v < 2048 → s.l2p[v]? = some q → s.inSet q = true → room →
        exec (.signal p 1 rel sa t 0 value) s = .next (sent (.tally q t))) ∧
      (v % 8 = 0 → v + 8 ≤ s.part.ddrEnd → room → exec (.signal p 2 rel sa t 0 value) s = .next (sent (.memory v))) ∧
      (room → exec (.signal p 3 rel sa t 0 value) s = .next (sent (.host t))) ∧
      (kind = 0 ∧ sa ≠ 0 ∨ kind = 1 ∧ 2048 ≤ v ∨ kind = 1 ∧ (∀ q, s.l2p[v]? = some q → s.inSet q = false) ∨
          kind = 2 ∧ v % 8 ≠ 0 ∨ kind = 2 ∧ s.part.ddrEnd < v + 8 →
        exec (.signal p kind rel sa t 0 value) s =
          .next (s.programFault p 0x05 (Layout.signal kind rel sa t 0 value)))) ∧
    (s.ready p [] → s.pcLegal u.pc 16 = true →
      (imm.toNat % 8 = 0 → imm.toNat + 8 ≤ s.part.ddrEnd → room →
        exec (.lsignal p 0 rel 0 value imm) s = .next (s.setTile p { u.advance 16 true with
          signals := u.signals ++ [⟨.memory imm.toNat, value, !rel, u.issueNo + 1⟩] })) ∧
      (imm.toNat % 8 ≠ 0 ∨ s.part.ddrEnd < imm.toNat + 8 → exec (.lsignal p 0 rel 0 value imm) s =
        .next (s.programFault p 0x05 (Layout.lsignal 0 rel 0 value))))) ∧
  (∀ (s : State) (p : TileId) (g : OutSignal) (l : List OutSignal), s.Inv → (s.tile p).signals = g :: l →
    (g.sent = false → (s.tile p).busyBefore g.issueNo = false → (∀ x ∈ l, g.issueNo ≤ x.issueNo) →
      (g.target.isMemory = false →
        exec (.signalRelease p) s = .next (s.setTile p { s.tile p with signals := l ++ [{ g with sent := true }] })) ∧
      (g.target.isMemory = true → g ∉ l →
        exec (.signalRelease p) s = .next (s.setTile p { s.tile p with signals := { g with sent := true } :: l }))) ∧
    (∀ a, g.sent = true → g.target = .memory a → (∀ c ∈ (s.tile p).claims, g.issueNo ≤ c.claimAt) →
      (s.tile p).smemBefore g.issueNo = false → s.meetsCounter a 8 = false →
      s.poisonedLines ((List.range 8).map (a + ·)) = [] →
      ∃ u, exec (.memoryCounterAdd p) s = .next u ∧ u.rdNat a 8 = (s.rdNat a 8 + g.value.toNat) % 2 ^ 64 ∧
        s.sameMemBut u ((List.range 8).map (a + ·)) ∧ (u.tile p).signals = l ∧ ∀ q, q ≠ p → u.tile q = s.tile q) ∧
    (∀ k, g.sent = true → g.target = .host k →
      ∃ u, exec (.hostTallyAdd p) s = .next u ∧ u.hostTally k = s.hostTally k + g.value ∧
        (∀ k', k' ≠ k → u.hostTally k' = s.hostTally k') ∧ (u.tile p).signals = l ∧
        (∀ j, s.job = some j → s.launch.run = true → s.launch.completed = false →
          reached (u.hostTally j.doneTally) j.doneCount = true →
          u.launch = { s.launch with completed := true, doneIrq := true })))

/-- FENCE and HALT wait for work that has not completed, without effect (the model's reading, log 4); FENCE then only advances, HALT stops
the tile; HALT while an item is held is cause 0x09. WAITT issues on when its tally has reached the target by the signed rule of R159, and
otherwise waits in STATE 2. -/
def Obligations.FenceHaltAndWaitEnd : Prop :=
  (∀ (s : State) (p : TileId) (qmask : BitVec 6), s.Inv → s.ready p [] →
    let t := s.tile p
    ((∀ k, k < 6 → qmask.getLsbD k = true → t.queueBusy k = false) →
      exec (.fence p qmask 0) s = .next (s.setTile p (t.advance 8 false))) ∧
    (∀ k, k < 6 → qmask.getLsbD k = true → t.queueBusy k = true → exec (.fence p qmask 0) s = .next s) ∧
    (t.held = [] → (∀ k, k < 6 → t.queueBusy k = false) →
      exec (.halt p 0) s = .next (s.setTile p { t.advance 8 true with state := .halted })) ∧
    (∀ k, k < 6 → t.held = [] → t.queueBusy k = true → exec (.halt p 0) s = .next s) ∧
    (t.held ≠ [] → exec (.halt p 0) s = .next (s.programFault p 0x09 (Layout.halt 0)))) ∧
  (∀ (s : State) (p : TileId) (t : BitVec 6) (mk sv : Bool) (sa : BitVec 5) (value : BitVec 32), s.Inv →
    s.ready p (if sv then [sa] else []) → (sv = true → value = 0) →
    let u := s.tile p
    let target : BitVec 32 := if sv then (u.reg sa).setWidth 32 else value
    (0 ≤ (u.tally t - target).toInt →
      exec (.waitt p t mk sv sa 0 value) s = .next (s.setTile p { u.advance 8 false with
        markAt := if mk then u.issueNo + 1 else u.markAt })) ∧
    ((u.tally t - target).toInt < 0 →
      exec (.waitt p t mk sv sa 0 value) s =
        .next (s.setTile p { u with state := .inWaitt, waitT := t, waitTarget := target, waitMk := mk })))

/-- CLAIM and CLAIM2 go out with their destination and revoke target; the causes of R163 otherwise. The atomic unit grants C, and C + 1 to
a CLAIM2 where that is below L, and advances C by as many; the replies come back in issue order, with the records in place (R164): where
none has changed since its list was armed (R264). -/
def Obligations.ClaimsAreGrantedInOrder : Prop :=
  (∀ (s : State) (p : TileId) (sd sa : BitVec 5) (list : BitVec 12) (off : BitVec 32) (pair : Bool), s.Inv →
    s.ready p [sd, sa] →
    let u := s.tile p
    let dest := (u.reg sa).toNat
    let n := if pair then 2 else 1
    let c : Instr := if pair then .claim2 p sd sa list 0 off else .claim p sd sa list 0 off
    let word := if pair then Layout.claim2 sd sa list 0 off else Layout.claim sd sa list 0 off
    (∀ e, s.listEntry list = some e → e.pair = pair → u.unentered + n ≤ 2 → dest % 64 = 0 → dest + 64 * n ≤ 0x02800000 →
      u.smemFull = false → exec c s = .next (s.setTile p { u.advance 8 false with claims := u.claims ++
        [⟨list, pair, sd, dest, BitVec.ofInt 64 (u.pc.toInt + 8 * off.toInt), u.issueNo + 1, none⟩] })) ∧
    ((∀ e, s.listEntry list = some e → e.pair ≠ pair) → exec c s = .next (s.programFault p 0x06 word)) ∧
    (∀ e, s.listEntry list = some e → e.pair = pair →
      (2 < u.unentered + n → exec c s = .next (s.programFault p 0x07 word)) ∧
      (u.unentered + n ≤ 2 → dest % 64 ≠ 0 ∨ 0x02800000 < dest + 64 * n →
        exec c s = .next (s.programFault p 0x0A word)))) ∧
  (∀ (s : State) (p : TileId) (k : Nat) (c : OutClaim) (e : ListEntry), s.Inv → (s.tile p).claims[k]? = some c →
    s.listEntry c.list = some e →
    (c.granted = none → (∀ i, i < k → ∀ b, (s.tile p).claims[i]? = some b → b.granted ≠ none) →
      (∀ g ∈ (s.tile p).signals, g.target.isMemory = true → c.claimAt ≤ g.issueNo) →
      (s.tile p).smemBefore c.claimAt = false → s.poisonedLines ((List.range 8).map (e.ctr + ·)) = [] →
      let g : List Nat := if s.listC e < s.listL e then
        (if c.pair = true ∧ s.listC e + 1 < s.listL e then [s.listC e, s.listC e + 1] else [s.listC e]) else []
      ∃ t, exec (.claimArrival p k) s = .next t ∧ t.listC e = s.listC e + g.length ∧ t.listL e = s.listL e ∧
        s.sameMemBut t ((List.range 4).map (e.ctr + ·)) ∧ (∀ q, q ≠ p → t.tile q = s.tile q) ∧
        t.tile p = { s.tile p with claims := (s.tile p).claims.set k { c with granted := some (g.map (BitVec.ofNat 32)) } }) ∧
    (∀ g, k = 0 → c.granted = some g → g.length ≤ 2 →
      (∀ i ∈ g, e.items + 64 * i.toNat + 64 ≤ s.part.ddrEnd ∧ s.recordAsArmed c.list (e.items + 64 * i.toNat) = true ∧
        s.poisonedLines ((List.range 64).map (e.items + 64 * i.toNat + ·)) = []) →
      ∃ t, exec (.claimReply p 0) s = .next t ∧
        t.tile p = { (s.tile p).setReg c.sd (g.getD 1 0xFFFFFFFF ++ g.getD 0 0xFFFFFFFF) with
          claims := (s.tile p).claims.drop 1,
          held := (s.tile p).held ++ g.map fun i => ⟨c.list, i, c.sd, c.target, c.claimAt⟩ } ∧
        (∀ q, q ≠ p → t.tile q = s.tile q) ∧
        (∀ n i, g[n]? = some i → ∀ j, j < 64 →
          t.peek (sramBase p.1 + c.dest + 64 * n + j) = s.peek (e.items + 64 * i.toNat + j)) ∧
        s.sameMemBut t ((List.range (64 * g.length)).map (sramBase p.1 + c.dest + ·))))

/-- MARK: plain, entering an item of a NOREVOKE list, or asking the atomic unit; cause 0x08 after a write-class instruction; the atomic
unit enters the item if its index is below L (R165 to R167). A revoked item takes every later item of its list with it: s[sd] of its CLAIM
is all ones, the later read slots are dropped, DONE counts the revoked items and the tile goes on at the revoke target (R168). -/
def Obligations.MarksEnterOrRevoke : Prop :=
  (∀ (s : State) (p : TileId) (en : Bool), s.Inv →
    let u := s.tile p
    let marked (h : List HeldItem) : Tile := { u.advance 8 false with markAt := u.issueNo + 1, held := h }
    (s.ready p [] →
      (en = false ∨ u.claims = [] ∧ u.held = [] → exec (.mark p en 0) s = .next (s.setTile p (marked u.held))) ∧
      (en = true → u.claims ≠ [] → exec (.mark p en 0) s = .next s) ∧
      (∀ h l, u.held = h :: l → en = true → u.claims = [] →
        (max u.markAt h.claimAt < u.writeAt → exec (.mark p en 0) s = .next (s.programFault p 0x08 (Layout.mark en 0))) ∧
        (u.writeAt ≤ max u.markAt h.claimAt → ∀ e, s.listEntry h.list = some e →
          exec (.mark p en 0) s = .next (s.setTile p (if e.noRevoke = true then marked l
            else { u with state := .atMark, enterRequested := true, enterAnswer := none }))))) ∧
    (∀ h l e, u.held = h :: l → u.state = .atMark → s.listEntry h.list = some e →
      (u.enterRequested = true → u.enterAnswer = none → u.smemBefore (u.issueNo + 1) = false →
        s.poisonedLines ((List.range 8).map (e.ctr + ·)) = [] →
        ∃ t, exec (.enterRequest p) s = .next t ∧
          t.tile p = { u with enterAnswer := some (decide (h.index.toNat < s.listL e)) } ∧
          (∀ q, q ≠ p → t.tile q = s.tile q) ∧ t.mem = s.mem) ∧
      (u.enterAnswer = some true → exec (.enterReply p) s = .next (s.setTile p
        { marked l with state := .issuing, enterRequested := false, enterAnswer := none })))) ∧
  (∀ (s : State) (p : TileId) (h : HeldItem) (l : List HeldItem) (e : ListEntry), s.Inv → (s.tile p).held = h :: l →
    (s.tile p).state = .atMark → (s.tile p).enterAnswer = some false → s.listEntry h.list = some e →
    (e.done ≠ 0 → s.poisonedLines ((List.range 8).map (e.done + ·)) = []) →
    let u := s.tile p
    let gone := u.held.filter fun x => x.list == h.list
    ∃ t, exec (.enterReply p) s = .next t ∧ (t.tile p).pc = h.target ∧ (t.tile p).state = .issuing ∧
      (∀ r, (t.tile p).reg r = if r = h.sd ∧ r ≠ 0 then 0xFFFFFFFFFFFFFFFF else u.reg r) ∧
      (t.tile p).held = u.held.filter (fun x => x.list != h.list) ∧ (t.tile p).issued = u.issued ∧
      (∀ k, (t.tile p).rslot k = match u.rslot k with
        | some x => if max u.markAt h.claimAt < x.armedAt then none else some x
        | none => none) ∧
      (t.tile p).handles = u.handles ∧ (t.tile p).tallies = u.tallies ∧ (∀ q, q ≠ p → t.tile q = s.tile q) ∧
      ((∀ k x, u.rslot k = some x → x.armedAt ≤ max u.markAt h.claimAt) →
        (e.done = 0 → t.mem = s.mem) ∧
        (e.done ≠ 0 → gone.length < 2 ^ 32 →
          t.rdNat e.done 8 = (s.rdNat e.done 8 + gone.length) % 2 ^ 64 ∧
          s.sameMemBut t ((List.range 8).map (e.done + ·)))))

/-- REVOKE sets L to min(L, b) and writes max(L, C) to s[sd]; LSET sets C to 0 and L to min(s[sa][31:0], CAP); cause 0x06 for a list that
is not there, or a REVOKE on a NOREVOKE list (R169, R170). -/
def Obligations.RevokeAndSetTheLimit : Prop :=
  ∀ (s : State) (p : TileId) (sd sa : BitVec 5) (list : BitVec 12) (e : ListEntry), s.Inv →
    let u := s.tile p
    let b := (u.reg sa).toNat % 2 ^ 32
    let clean := s.poisonedLines ((List.range 8).map (e.ctr + ·)) = []
    (s.ready p [sd, sa] → u.smemReady → s.listEntry list = some e → e.noRevoke = false → clean →
      ∃ t, exec (.revoke p sd sa list 0 0) s = .next t ∧ t.listL e = min (s.listL e) b ∧ t.listC e = s.listC e ∧
        t.tile p = (u.advance 8 true).setReg sd (BitVec.ofNat 64 (max (min (s.listL e) b) (s.listC e))) ∧
        (∀ q, q ≠ p → t.tile q = s.tile q) ∧ s.sameMemBut t ((List.range 4).map (e.ctr + 4 + ·))) ∧
    (s.ready p [sa] → u.smemReady → s.listEntry list = some e → clean →
      ∃ t, exec (.lset p 0 sa list 0 0) s = .next t ∧ t.listC e = 0 ∧ t.listL e = min b e.cap ∧
        t.tile p = u.advance 8 true ∧ (∀ q, q ≠ p → t.tile q = s.tile q) ∧
        s.sameMemBut t ((List.range 8).map (e.ctr + ·))) ∧
    (s.ready p [sd, sa] → (∀ e, s.listEntry list = some e → e.noRevoke = true) →
      exec (.revoke p sd sa list 0 0) s = .next (s.programFault p 0x06 (Layout.revoke sd sa list 0 0))) ∧
    (s.ready p [sa] → s.listEntry list = none →
      exec (.lset p 0 sa list 0 0) s = .next (s.programFault p 0x06 (Layout.lset 0 sa list 0 0)))

/-- An unassigned opcode, long opcode or function selector in bits 57 to 55 or 57 to 56 is a program fault with cause 0x01, and opcode
0x1B cause 0x21 (R153). -/
def Obligations.UnassignedWordsFault : Prop :=
  (∀ (s : State) (p : TileId) (word : BitVec 64), s.ready p [] →
    let op := word.toNat / 2 ^ 58
    (op = 0x1B → exec (.unassignedOpcode p word) s = .next (s.programFault p 0x21 word)) ∧
    (op ∈ [0x0E, 0x0F, 0x1C, 0x1D, 0x1E, 0x1F, 0x27, 0x2D, 0x2E, 0x2F, 0x33, 0x3A, 0x3B] ∨
        op = 0x3F ∧ 3 ≤ word.toNat / 2 ^ 52 % 64 ∨ op = 0x3E ∧ 4 ≤ word.toNat / 2 ^ 55 % 8 ∨
        op = 0x26 ∧ 5 ≤ word.toNat / 2 ^ 55 % 8 ∨ op = 0x32 ∧ 4 ≤ word.toNat / 2 ^ 55 % 8 ∨
        op = 0x39 ∧ 2 ≤ word.toNat / 2 ^ 56 % 4 →
      exec (.unassignedOpcode p word) s = .next (s.programFault p 0x01 word)))

/-! ### Faults -/

/-- A failing check of a tile instruction (of those that read memory, only where it starts as it issues: log 12) stops the tile, fills its
TLE_FAULT once, reports the launch's first fault, ranks the ending at least PROGFAULT and leaves no tile of the set issuing (R172). -/
def Obligations.FailingCheckStopsTheLaunch : Prop :=
  ∀ (i : Instr) (s : State) (x : TileOp) (c : Check), s.Inv → tileOp i s = some x → s.looksAt x →
    x.checks.find? (fun c => c.bad && !(c.late && (s.tile x.p).mustWait x)) = some c → s.inSet x.p = true →
    ∃ t, exec i s = .next t ∧ (t.tile x.p).state = .faulted ∧
      (t.tile x.p).fault = (if (s.tile x.p).fault.valid = true then (s.tile x.p).fault
        else ⟨true, false, c.cause, (s.tile x.p).pc.setWidth 48, x.word⟩) ∧
      t.launch.st = 3 ∧ 3 ≤ t.launch.pendingEnd.toNat ∧ t.launch.faultValid = true ∧
      (s.launch.faultValid = false → t.launch.faultTile.toNat = x.p.1 ∧ t.launch.faultCause = c.cause ∧
        t.launch.faultHardware = false) ∧
      (∀ q, s.inSet q = true → (t.tile q).state ≠ .issuing ∧ (t.tile q).state ≠ .inWaitt ∧ (t.tile q).state ≠ .atMark) ∧
      ∀ q, s.inSet q = false → t.tile q = s.tile q

/-- An instruction at an illegal PC is cause 0x04, before every other check; so is a long form in the last word of the code region, whose
second word is not used (R462). At a tile that does not issue, an instruction has no effect; so has one that names a register with a write
pending, one that is held and one whose queue is full (R149; the sender presents the instruction again, log 4). One whose queue keeps it
from starting enters it, with the operands of its issue (log 12). -/
def Obligations.SequencerHoldsOrFaultsFirst : Prop :=
  ((∀ (i : Instr) (s : State) (x : TileOp), tileOp i s = some x → (s.tile x.p).state = .issuing →
    s.pcLegal (s.tile x.p).pc 8 = false → exec i s = .next (s.programFault x.p 0x04 x.word)) ∧
  (∀ (s : State) (p : TileId) (sd : BitVec 5) (rel : Bool) (value : BitVec 32) (imm : BitVec 64), s.ready p [sd] →
    s.pcLegal (s.tile p).pc 16 = false →
    exec (.lli p sd false 0 0 imm) s = .next (s.programFault p 0x04 (Layout.lli sd false 0 0)) ∧
    exec (.ljmp p sd rel 0 value imm) s = .next (s.programFault p 0x04 (Layout.ljmp sd rel 0 value)) ∧
    exec (.lsignal p 0 rel 0 value imm) s = .next (s.programFault p 0x04 (Layout.lsignal 0 rel 0 value)))) ∧
  (∀ (i : Instr) (s : State) (x : TileOp), tileOp i s = some x →
    ((s.tile x.p).state ≠ .issuing → exec i s = .next s) ∧
    ((s.tile x.p).state = .issuing → s.pcLegal (s.tile x.p).pc 8 = true → (∃ r ∈ x.reads, (s.tile x.p).isPending r = true) →
      exec i s = .next s) ∧
    (s.looksAt x → (∀ c ∈ x.checks, c.bad = false) → x.held = true ∨ s.queueFull x = true → exec i s = .next s) ∧
    (∀ e, s.Inv → x.entry = some e → s.looksAt x → (∀ c ∈ x.checks, c.bad = true → c.late = true) → x.held = false →
      s.queueFull x = false → (s.tile x.p).mustWait x = true →
      ∃ t w, exec i s = .next t ∧ t = s.setTile x.p { (s.tile x.p).advance x.len x.wc with
          waiting := (s.tile x.p).waiting ++ [w] } ∧ w.instr = i ∧ w.regs = (s.tile x.p).regs ∧
        w.handles = (s.tile x.p).handles ∧ w.pc = (s.tile x.p).pc ∧ w.issueNo = (s.tile x.p).issueNo + 1))

/-! ### Numbers (chapter 02) -/

/-- Sums, products and comparisons of finite values are exact (R63, R71). -/
def Obligations.FiniteArithmeticIsExact : Prop :=
  ∀ a b : FVal, a.isFinite = true → b.isFinite = true →
    (FVal.add a b).isFinite = true ∧ (FVal.add a b).rat = a.rat + b.rat ∧
    (FVal.mul a b).isFinite = true ∧ (FVal.mul a b).rat = a.rat * b.rat ∧
    (FVal.lt a b = true ↔ a.rat < b.rat) ∧ (FVal.eq a b = true ↔ a.rat = b.rat)

/-- Every finite code of a built-in format converts back to itself in every rounding mode, and neither saturates nor is a NaN (R52, R71).
-/
def Obligations.FiniteCodesRoundTrip : Prop :=
  ∀ f ∈ [Fmt.e4m3, Fmt.e5m2, Fmt.e3m2, Fmt.e2m3, Fmt.e2m1, Fmt.bf16, Fmt.f16, Fmt.b32, Fmt.b64, Fmt.chunk],
    ∀ (r : Rnd) (g c : Nat), g < 2 ^ 32 → c < 2 ^ (1 + f.ebits + f.fbits) → (f.decode c).isFinite = true →
      f.conv r g (f.decode c) = ⟨c, false, false⟩

/-- RNE gives a nearest value of the format: no finite code is closer to a source within its range (R71). -/
def Obligations.RoundingIsNearest : Prop :=
  ∀ f ∈ [Fmt.bf16, Fmt.f16, Fmt.b32, Fmt.b64, Fmt.chunk], ∀ (v : FVal) (c : Nat), v.isFinite = true →
    |v.rat| ≤ f.largest.rat → (f.decode c).isFinite = true →
    (f.round .rne v).isFinite = true ∧ |(f.round .rne v).rat - v.rat| ≤ |(f.decode c).rat - v.rat|

/-! ### Arrays (chapters 03 and 04) -/

/-- XLOAD, XLOADT and ALOAD replace one block with the elements of their window and change nothing else but the tile's counts (R83, R93,
R116). -/
def Obligations.LoadsReplaceTheirBlock : Prop :=
  ∀ (s : State) (p : TileId) (dx : BitVec 4) (rs : BitVec 3) (sa : BitVec 5) (klen : BitVec 10) (nlen il jl : BitVec 6)
    (d : Desc), s.Inv → s.poisoned = [] → ((s.tile p).handle dx).desc = some d →
    let u := s.tile p
    let a := (u.reg sa).toNat % 2 ^ 32
    let b := (u.reg sa).toNat / 2 ^ 32
    let w (m n : Nat) : Window := ⟨d, dx, d.pair && (u.handle dx).half, m, n, 0, 0⟩
    (s.issues (opXload p dx rs sa klen nlen 0 s) → ∃ t x, exec (.xload p dx rs sa klen nlen 0) s = .next t ∧
      LoadsBlock s p x (w a b) klen.toNat nlen.toNat (fun n k => (k, n)) ∧
      t = s.setTile p { u.advance 8 true with stationary := some x, strm := (t.tile p).strm }) ∧
    (s.issues (opXloadt p dx rs sa klen nlen 0 s) → ∃ t x, exec (.xloadt p dx rs sa klen nlen 0) s = .next t ∧
      LoadsBlock s p x (w b a) klen.toNat nlen.toNat (fun n k => (n, k)) ∧
      t = s.setTile p { u.advance 8 true with stationary := some x, strm := (t.tile p).strm }) ∧
    (s.issues (opAload p dx rs sa il jl 0 s) → ∃ t x, exec (.aload p dx rs sa il jl 0) s = .next t ∧
      LoadsBlock s p x (w a b) il.toNat jl.toNat (fun n k => (k, n)) ∧
      t = s.setTile p { u.advance 8 true with adapter := some x, strm := (t.tile p).strm })

/-- MMUL, AMUL, DXMUL and DWMUL to memory complete and store only in their output window and their selection output; a DWMUL into a fabric
send completes (R84, R87, R93, R117, R118). -/
def Obligations.MultipliesStoreOnlyTheirOutput : Prop :=
  ∀ (s : State) (p : TileId) (dw dy dc mpid : BitVec 4) (rs ws rc : BitVec 3) (sa sb : BitVec 5) (pass : BitVec 2)
    (dmode : Bool), s.Inv → s.poisoned = [] →
    let u := s.tile p
    let lo (r : BitVec 5) := (u.reg r).toNat % 2 ^ 32
    let hi (r : BitVec 5) := (u.reg r).toNat / 2 ^ 32
    let b := u.stationary.getD ⟨0, 1, 1, []⟩
    let a := u.adapter.getD ⟨0, 1, 1, []⟩
    (s.issues (opMmul p dw rs dy ws sa sb pass dc rc 0 s) → ∃ t, exec (.mmul p dw rs dy ws sa sb pass dc rc 0) s = .next t ∧
      (t.tile p).arr.rows = u.arr.rows + BitVec.ofNat 32 (hi sb) ∧
      MultipliesInto s t p ((u.shape (u.latched pass false) pass true (hi sb) b.nlen (lo sa) (lo sb) 0
        (u.operand dw rs false (hi sa) (lo sa) b.klen (hi sb)) (hi sa) dy ws dc rc none true).stores s p)) ∧
    (s.issues (opAmul p dw rs dy ws sa sb pass dc rc 0 s) → ∃ t, exec (.amul p dw rs dy ws sa sb pass dc rc 0) s = .next t ∧
      MultipliesInto s t p ((u.shape (u.latched pass true) pass false (lo sb) a.nlen (hi sb) (lo sa) 32
        (u.operand dw rs false (hi sa) (lo sa) a.klen (lo sb)) (hi sa) dy ws dc rc none true).stores s p)) ∧
    (s.issues (opDxmul p dw rs dy ws sa sb pass dc rc dmode mpid 0 s) →
      ∃ t, exec (.dxmul p dw rs dy ws sa sb pass dc rc dmode mpid 0) s = .next t ∧
        (t.tile p).arr.rows = u.arr.rows + BitVec.ofNat 32 (hi sb) ∧
        MultipliesInto s t p ((u.shape (u.latched pass false) pass true (hi sb) b.nlen (lo sa) (lo sb) 0
          (u.operand dw rs false (lo sa) (hi sa) (hi sb) b.klen) (hi sa) dy ws dc rc none true).stores s p)) ∧
    (s.issues (opDwmul p dw rs dy ws sa sb pass dc rc false 0 s) →
      ∃ t, exec (.dwmul p dw rs dy ws sa sb pass dc rc false 0) s = .next t ∧
        (t.tile p).arr.rows = u.arr.rows + BitVec.ofNat 32 (hi sb) ∧
        MultipliesInto s t p ((u.shape (u.latched pass false) pass false (hi sb) b.nlen (lo sb) (lo sa) 0
          (u.operand dw rs false (lo sa) (hi sa) (hi sb) b.klen) (hi sa) dy ws dc rc none true).stores s p)) ∧
    (s.issues (opDwmul p dw rs dy ws sa sb pass dc rc true 0 s) →
      ∃ t, exec (.dwmul p dw rs dy ws sa sb pass dc rc true 0) s = .next t ∧
        (t.tile p).arr.rows = u.arr.rows + BitVec.ofNat 32 (hi sb))

/-- DCFG, ACFG, DSTAT and the merge of a record at the atomic unit (R101, R107, R108, R265); DSTAT with clr = 1 keeps HBASE and BINW
(DEDUCED, log 32), MEM_MERGE_ERR stays at its 16-bit maximum (DEDUCED, log 56). -/
def Obligations.DrainRecordsFollowTheirInstructions : Prop :=
  ∀ (s : State) (p : TileId) (sx : BitVec 5) (dst clr src : Bool), s.Inv → s.poisoned = [] →
    let u := s.tile p
    let a := (u.reg sx).toNat
    let r : Vector Byte 32 := Vector.ofFn fun i => s.peek (sramBase p.1 + a + i.1)
    (s.issues (opDcfg p sx 0 s) → ∃ m, exec (.dcfg p sx 0) s =
        .next (s.setTile p { u.advance 8 true with mainCfg := r, mainStat := m }) ∧
      m = { u.mainStat with hbase := m.hbase, binw := m.binw }) ∧
    (s.issues (opAcfg p sx 0 s) → ∃ m, exec (.acfg p sx 0) s =
        .next (s.setTile p { u.advance 8 true with adpCfg := r, adpStat := m }) ∧
      m = { u.adpStat with hbase := m.hbase, binw := m.binw }) ∧
    (s.issues (opDstat p sx dst clr src 0 s) →
      let rec0 := if src then u.adpStat else u.mainStat
      let left := if clr then { StatRec.empty with hbase := rec0.hbase, binw := rec0.binw } else rec0
      ∃ t, exec (.dstat p sx dst clr src 0) s = .next t ∧
        t.tile p = { u.advance 8 true with
          mainStat := if src then u.mainStat else left, adpStat := if src then left else u.adpStat,
          statMerges := if dst then u.statMerges ++ [⟨u.issueNo + 1, src, a, rec0⟩] else u.statMerges } ∧
        (dst = false → t.rdBytes (sramBase p.1 + a) 96 = rec0.image) ∧
        s.sameMemBut t (if dst then [] else (List.range 96).map (sramBase p.1 + a + ·)) ∧
        t = { s with mem := t.mem, tiles := t.tiles } ∧ ∀ q, q ≠ p → t.tile q = s.tile q) ∧
    (∀ m l, u.statMerges = m :: l →
      let old := StatRec.ofImage (s.rdBytes m.addr 96)
      ∃ t, exec (.statMerge p) s = .next t ∧ t.tile p = { u with statMerges := l } ∧ (∀ q, q ≠ p → t.tile q = s.tile q) ∧
        (old.hbase = m.record.hbase → old.binw = m.record.binw →
          t.rdBytes m.addr 96 = (old.merge m.record).image ∧ s.sameMemBut t ((List.range 96).map (m.addr + ·))) ∧
        (old.hbase ≠ m.record.hbase ∨ old.binw ≠ m.record.binw → t.mem = s.mem ∧
          t.launch = s.launch ∧ (t.port (State.channelOf m.addr)).mergeAddr.toNat = m.addr % 2 ^ 48 ∧
          (t.port (State.channelOf m.addr)).mergeErr.toNat = min 0xFFFF ((s.port (State.channelOf m.addr)).mergeErr.toNat + 1)))

/-- LFMT delivers the 64-bit entry of the layer, and cause 0x2F without a table or beyond its layers (R120). -/
def Obligations.LayerFormatReadsItsEntry : Prop :=
  ∀ (s : State) (p : TileId) (sd sl : BitVec 5) (j : Job), s.Inv → s.poisoned = [] → s.job = some j → s.ready p [sd, sl] →
    let l := ((s.tile p).reg sl).toNat % 4096
    (j.layerFmt ≠ 0 → l < j.nlayer → (s.tile p).smemReady → ∃ v : W64, v.toNat = s.rdNat (j.layerFmt + 0x10 + 8 * l) 8 ∧
      exec (.lfmt p sd sl 0) s = .next (s.setTile p (((s.tile p).advance 8 false).setReg sd v))) ∧
    (j.layerFmt = 0 ∨ j.nlayer ≤ l → exec (.lfmt p sd sl 0) s = .next (s.programFault p 0x2F (Layout.lfmt sd sl 0)))

/-! ### The vector engine and the lane generators (chapter 06) -/

/-- Every vector instruction completes and stores only in its destination: elements, the scales of a block destination of VCVT, or the
records of VRED (R177 to R188, R192, R194). -/
def Obligations.VectorInstructionsStoreOnlyTheirResults : Prop :=
  ∀ (s : State) (p : TileId) (sd sa sb sc sl ty ti td : BitVec 5) (fn : BitVec 6) (f3 : BitVec 3) (mode rnd : BitVec 2)
    (mpid : BitVec 4) (cnt : BitVec 12), s.Inv → s.poisoned = [] →
    let u := s.tile p
    let n := cnt.toNat + 1
    let dest (w : Nat) : List Nat := vecDest p (u.reg sd) w n
    (s.issues (opVop p sd sa sb fn ty rnd cnt 0 s) → ∃ t, exec (.vop p sd sa sb fn ty rnd cnt 0) s = .next t ∧
      VectorInto s t p (dest (s.widthOf ty))) ∧
    (s.issues (opVter p sd sa sb sc f3 ty rnd cnt 0 s) → ∃ t, exec (.vter p sd sa sb sc f3 ty rnd cnt 0) s = .next t ∧
      VectorInto s t p (dest (s.widthOf ty))) ∧
    (s.issues (opVmp p sd sa sb sc mpid ti td rnd cnt 0 s) → ∃ t, exec (.vmp p sd sa sb sc mpid ti td rnd cnt 0) s = .next t ∧
      VectorInto s t p (dest (s.widthOf td))) ∧
    (s.issues (opVrand p sd sb mode cnt 0 s) → ∃ t, exec (.vrand p sd sb mode cnt 0) s = .next t ∧
      VectorInto s t p (dest (if mode = 2 then 8 else 32))) ∧
    (∀ y, s.etype td = some y → s.issues (opVcvt p sd sa sc ti td rnd cnt 0 s) →
      ∃ t, exec (.vcvt p sd sa sc ti td rnd cnt 0) s = .next t ∧
        VectorInto s t p (dest y.width ++ if y.block = 0 then [] else
          (List.range (n / y.block * y.scaleBytes)).map (sramBase p.1 + (u.reg sc).toNat % 2 ^ 32 + ·))) ∧
    (s.issues (opVred p sd sa sb sl f3 ty cnt 0 s) → ∃ t, exec (.vred p sd sa sb sl f3 ty cnt 0) s = .next t ∧
      VectorInto s t p ((List.range (16 * (n / if sl = 0 then n else (u.reg sl).toNat % 2 ^ 13))).map
        (sramBase p.1 + (u.reg sd).toNat + ·)))

/-- VOP: where no destination byte meets a source byte of another element, element i of the destination is the function of elements i of
the sources (R179, R181). -/
def Obligations.VectorElementsAreTheFunctionOfTheirSources : Prop :=
  ∀ (s : State) (p : TileId) (sd sa sb ty : BitVec 5) (fn : BitVec 6) (cnt : BitVec 12) (e : EType), s.Inv →
    s.poisoned = [] → s.etype ty = some e → s.issues (opVop p sd sa sb fn ty 0 cnt 0 s) →
    let o (r : BitVec 5) := vecOperand ((s.tile p).reg r)
    let n := cnt.toNat + 1
    overlapsOther (o sd) e.width (o sa) e.width n = false →
    (vopUnary fn = false → overlapsOther (o sd) e.width (o sb) e.width n = false) →
    ∃ t, exec (.vop p sd sa sb fn ty 0 cnt 0) s = .next t ∧ ∀ i, i < n → ∀ r,
      vopElem e fn .rne 0 (s.vecCode p (o sa) e.width i) (if vopUnary fn then 0 else s.vecCode p (o sb) e.width i) = some r →
      t.vecCode p (o sd) e.width i = r.code % 2 ^ e.width

/-- SEEK, SKEY and SKIP place, key and advance all 64 lanes; SKIP counts the lanes that wrap (R193, R195). GSAVE writes the 2,048-byte
image of the lanes and nothing else, and GREST of that image brings back every lane (R196). -/
def Obligations.GeneratorsMoveAndRestore : Prop :=
  (∀ (s : State) (p : TileId) (sa : BitVec 5) (sub : BitVec 8), s.Inv → s.ready p [sa] →
    let u := s.tile p
    let v := u.reg sa
    ∃ a b c, exec (.seek p sa sub 0) s = .next (s.setTile p { u.advance 8 true with lanes := a }) ∧
      exec (.skey p sa 0 0) s = .next (s.setTile p { u.advance 8 true with lanes := b }) ∧
      exec (.genSkip p sa 0 0) s = .next (s.setTile p { u.advance 8 true with lanes := c, vec := { u.vec with
        genWrap := satAdd32 u.vec.genWrap
          ((List.finRange 64).filter fun l => decide (2 ^ 32 ≤ (u.lanes[l]).c0.toNat + v.toNat % 2 ^ 32)).length } }) ∧
      ∀ l : Fin 64,
        a.get l = ⟨(u.lanes[l]).key, 0, BitVec.ofNat 32 (sub.toNat * 2 ^ 16 + l.1), v.setWidth 32, (v >>> 32).setWidth 32⟩ ∧
        b.get l = { u.lanes[l] with key := v } ∧
        c.get l = { u.lanes[l] with c0 := (u.lanes[l]).c0 + v.setWidth 32 }) ∧
  (∀ (s : State) (p : TileId) (sa : BitVec 5), s.Inv → s.poisoned = [] → s.ready p [sa] →
    let off := ((s.tile p).reg sa).toNat % 2 ^ 32
    off % 64 = 0 → off + 2048 ≤ 0x02800000 →
    ∃ t, exec (.gsave p sa 0 0) s = .next t ∧ t.tile p = (s.tile p).advance 8 true ∧
      s.sameMemBut t ((List.range 2048).map (sramBase p.1 + off + ·)) ∧ (∀ q, q ≠ p → t.tile q = s.tile q) ∧
      ∀ r : State, r.Inv → r.poisoned = [] → r.mem = t.mem → r.ready p [sa] → (r.tile p).reg sa = (s.tile p).reg sa →
        exec (.grest p sa 0 0) r =
          .next (r.setTile p { (r.tile p).advance 8 true with lanes := (s.tile p).lanes }))

/-! ### Descriptors and streams (chapter 07) -/

/-- DMAKE binds a handle to the record it validates, DBASE moves a bound handle's BASE, SWAPH turns the half bit; a failing record is a
fault recorded in TLE_DESC_ERR (R200, R208, R211, R218). SARM and COPY latch their two windows at issue and arm their slots; nothing moves
yet (R214, R219). -/
def Obligations.DescriptorsAndMoves : Prop :=
  (∀ (s : State) (p : TileId) (d : BitVec 4) (sa : BitVec 5), s.Inv →
    let u := s.tile p
    let off := (u.reg sa).toNat
    (s.ready p [sa] → u.claims = [] → u.signals = [] → (∀ w ∈ u.waiting, w.port = true) → off % 64 = 0 → off + 128 ≤ 0x02800000 →
      (∀ x, s.validateRecord p off = .ok x →
        exec (.dmake p d sa 0) s = .next (s.setTile p ((u.advance 8 false).setHandle d ⟨some x, false⟩))) ∧
      (∀ e, s.validateRecord p off = .error e → 0x40 ≤ e.cause.toNat → e.cause.toNat < 0x50 →
        ∃ t, exec (.dmake p d sa 0) s = .next t ∧ (t.tile p).state = .faulted ∧ (t.tile p).handles = u.handles ∧
          (t.tile p).strm = { u.strm with errHandle := d, errDim := BitVec.ofNat 3 e.dim, errCause := e.cause,
                                          errValid := true })) ∧
    (∀ x y, s.ready p [sa] → (u.handle d).desc = some x → off < 2 ^ 48 → rebase s x off = .ok y →
      y.base = off ∧ y.rank = x.rank ∧ y.etype = x.etype ∧ y.stride = x.stride ∧ y.size = x.size ∧
      exec (.dbase p d sa 0) s = .next (s.setTile p ((u.advance 8 false).setHandle d ⟨some y, (u.handle d).half⟩))) ∧
    (∀ x, s.ready p [] → (u.handle d).desc = some x →
      (x.pair = true → exec (.swaph p d 0) s =
        .next (s.setTile p ((u.advance 8 false).setHandle d ⟨some x, !(u.handle d).half⟩))) ∧
      (x.pair = false → ∃ t, exec (.swaph p d 0) s = .next t ∧ (t.tile p).state = .faulted ∧
        (t.tile p).strm.errCause = 0x48 ∧ (t.tile p).strm.errHandle = d))) ∧
  (∀ (s : State) (p : TileId) (ds dd : BitVec 4) (rs ws : BitVec 3) (sa sb sc : BitVec 5) (te tr : Bool) (t : BitVec 6)
    (x y : Desc), s.Inv →
    let u := s.tile p
    let lo (r : BitVec 5) := (u.reg r).toNat % 2 ^ 32
    let hi (r : BitVec 5) := (u.reg r).toNat / 2 ^ 32
    (u.handle ds).desc = some x → (u.handle dd).desc = some y →
    let src : Window := ⟨x, ds, x.pair && (u.handle ds).half, lo sa, hi sa, lo sb, hi sb⟩
    let dst (l0 l1 : Nat) : Window := ⟨y, dd, y.pair && !(u.handle dd).half, lo sc, hi sc, l0, l1⟩
    (s.issues (opSarm p ds rs dd sa sb sc te t 0 s) → exec (.sarm p ds rs dd sa sb sc te t 0) s =
      .next (s.setTile p ((u.advance 8 false).setRslot rs
        (some ⟨src, dst (lo sb) (hi sb), false, none, if te then some t else none, u.issueNo + 1⟩)))) ∧
    (s.issues (opCopy p ds rs dd ws sa sb sc tr 0 s) → ∃ v, exec (.copy p ds rs dd ws sa sb sc tr 0) s =
        .next (s.setTile p { u.advance 8 true with rslots := v.rslots, wslots := v.wslots }) ∧
      v = ((u.advance 8 true).setRslot rs (some ⟨src, if tr then dst (hi sb) (lo sb) else dst (lo sb) (hi sb), tr,
        some ⟨ws.toNat, ws.isLt⟩, none, u.issueNo + 1⟩)).setWslot ws .copy))

/-- The transfer of a slot completes, once those before it that it reads from or that use the turn buffer have (log 92): both slots go
idle, a SARM's tally gains 1, nothing but the destination window changes, and where the bytes of the windows do not meet each other or a
list's counter word, each element of an unblocked destination that is no pad cell holds the bits of its source (R214, R219 to R221). -/
def Obligations.SlotTransfersDeliver : Prop :=
  ∀ (s : State) (p : TileId) (slot : SlotId) (x : Transfer) (e : EType), s.Inv → s.poisoned = [] →
    (s.tile p).rslots[slot] = some x → s.etype x.src.desc.etype = some e → s.readsPending p e x = false →
    (x.turned = true → (s.tile p).turnBefore x.armedAt = false) →
    ∃ t, exec (.streamSlotComplete p slot) s = .next t ∧ (t.tile p).rslots[slot] = none ∧
      (∀ k : SlotId, k ≠ slot → (t.tile p).rslots[k] = (s.tile p).rslots[k]) ∧
      (∀ k, x.wslot = some k → (t.tile p).wslots[k] = .idle) ∧
      (∀ k, x.tally = some k → ((t.tile p).tally k).toNat = (((s.tile p).tally k).toNat + 1) % 2 ^ 32) ∧
      (t.tile p).regs = (s.tile p).regs ∧ (t.tile p).handles = (s.tile p).handles ∧
      s.sameMemBut t (x.dst.touched p e ++ x.dst.bytes p e) ∧ (∀ q, q ≠ p → t.tile q = s.tile q) ∧
      t = { s with mem := t.mem, tiles := t.tiles, freeCtr := t.freeCtr, rawTotals := t.rawTotals } ∧
      (e.block = 0 → x.dst.desc.wr = true → (x.dst.bytes p e).Nodup → (∀ a ∈ x.src.readBytes p e, a ∉ x.dst.bytes p e) →
        (∀ a ∈ x.dst.bytes p e, s.meetsCounter a 1 = false) →
        x.dst.len0 = (if x.turned then x.src.len1 else x.src.len0) → x.dst.len1 = (if x.turned then x.src.len0 else x.src.len1) →
        ∀ i j, i < x.src.len0 → j < x.src.len1 →
          let a := x.dst.a + if x.turned then j else i
          let b := x.dst.b + if x.turned then i else j
          x.dst.desc.isPad a b = false →
          t.rdCode p e x.dst a b = s.rdCode p e x.src (x.src.a + i) (x.src.b + j) % 2 ^ e.width)

/-! ### Routed experts (chapter 08) -/

/-- A key's candidates are NC different experts of the layer, whatever the key (R231). The assigner gives no expert more than C tokens, no
token one expert twice, and accounts for every choice as a slot or a null (R239, R240). -/
def Obligations.RoutingSelectsAndAssigns : Prop :=
  (∀ (e : Image) (key : W64), Route.nc e ≤ Route.nexp e →
    (candidates e key).length = Route.nc e ∧ (candidates e key).Nodup ∧ ∀ x ∈ candidates e key, x < Route.nexp e) ∧
  (∀ (c k nexp : Nat) (recs : List (List Nat × List Nat)), (∀ r ∈ recs, r.1.Nodup ∧ ∀ e ∈ r.1, e < nexp) →
    let a := recs.zipIdx.foldl (fun a x => assignToken c k x.2 x.1.1 x.1.2 a)
      ⟨List.replicate nexp 0, List.replicate nexp 0, [], []⟩
    a.load.length = nexp ∧ (∀ n ∈ a.load, n ≤ c) ∧ a.slots.length = a.load.sum ∧
    (∀ e, e < nexp → (a.slots.filter fun x => x.1 == e).length = a.load.getD e 0) ∧
    a.disp.length = recs.length ∧ (∀ l ∈ a.disp, l.length = k ∧ ((l.filterMap id).map (·.1)).Nodup) ∧
    (a.disp.flatten.filter (·.isNone)).length + a.slots.length = k * recs.length)

/-- RSEL and the four exchanges complete and store only choice records or the destination view; RASSIGN queues its call (R236, R243, R244,
R246). -/
def Obligations.RoutingInstructionsStoreOnlyTheirResults : Prop :=
  ∀ (s : State) (p : TileId) (ds dd da : BitVec 4) (rs ws ra : BitVec 3) (sk sa sb sc : BitVec 5) (gw ev : Bool)
    (rnd : BitVec 2) (t : BitVec 6) (d : Desc) (ty : EType), s.Inv → s.poisoned = [] →
    let u := s.tile p
    let b := s.callBlock (u.reg sc).toNat
    let e := Route.layer s.routeImage b.layer
    let nt := (u.reg sa).toNat / 2 ^ 32
    let tok := (u.reg sa).toNat % 2 ^ 32
    let dest := (wholeDest u dd d).touched p ty
    (Route.ncc e ≤ 2 → s.issues (opRsel p ds rs sk sa sc 0 s) → ∃ v, exec (.rsel p ds rs sk sa sc 0) s = .next v ∧
      StoresInto s v p ((List.range (nt * Route.rs e)).map (b.choice + tok * Route.rs e + ·)) ∧
      v = { s with mem := v.mem, tiles := v.tiles }) ∧
    (s.issues (opRassign p sc ev t 0 s) → exec (.rassign p sc ev t 0) s =
      .next { s.setTile p { u.advance 8 true with portWork := u.portWork ++ [u.issueNo + 1] } with
        rtu := { s.rtu with calls := s.rtu.calls ++
          [⟨p, u.issueNo + 1, (u.reg sc).toNat, ev, t, u.pc.setWidth 48, Layout.rassign sc ev t 0⟩] } }) ∧
    ((u.handle dd).desc = some d → s.etype d.etype = some ty →
      (s.issues (opGather p ds rs dd ws 0 0 sc sa sb gw rnd 0 s) →
        ∃ v, exec (.gather p ds rs dd ws 0 0 sc sa sb gw rnd 0) s = .next v ∧ MultipliesInto s v p dest) ∧
      (s.issues (opScatter p ds rs dd ws 0 0 sc sa sb gw rnd 0 s) →
        ∃ v, exec (.scatter p ds rs dd ws 0 0 sc sa sb gw rnd 0) s = .next v ∧ MultipliesInto s v p dest) ∧
      (s.issues (opCombine p ds rs dd ws 0 0 sc sa sb gw rnd 0 s) →
        ∃ v, exec (.combine p ds rs dd ws 0 0 sc sa sb gw rnd 0) s = .next v ∧ MultipliesInto s v p dest) ∧
      (s.issues (opGgrad p ds rs dd ws da ra sc sa sb false rnd 0 s) →
        ∃ v, exec (.ggrad p ds rs dd ws da ra sc sa sb false rnd 0) s = .next v ∧ MultipliesInto s v p dest))

/-- The assigner serves the call at the head of its queue: the dispatch record and CAP, SSTR, STATUS are written, nothing else of memory
but, with ev = 0, the STEP array, to which the loads are added up to 2^32 - 1; tally t of the issuing tile gains 1 (R243). -/
def Obligations.AssignerServesTheHeadCall : Prop :=
  ∀ (s : State) (q : RtuCall) (rest : List RtuCall), s.Inv → s.poisoned = [] → s.rtu.calls = q :: rest →
    let b := s.callBlock q.block
    let e := Route.layer s.routeImage b.layer
    let base := Route.stateAt s.routeImage
    let steps := (List.range (4 * Route.nexp e)).map (State.rstep base b.layer 0 + ·)
    let total (i : Nat) : Nat := s.rdNat (State.rstep base b.layer i) 4 + (s.assignment e b).load.getD i 0
    b.layer < Route.nlayer s.routeImage → s.callBad q.block e b = false →
    (∀ t, t < b.t → ∃ y, s.choiceOf e b t = some y) →
    ∃ v, exec .assignCall s = .next v ∧ v.rtu.calls = rest ∧ v.rtu.done = s.rtu.done + 1 ∧
      v.rdNat (q.block + 0x28) 4 = Route.cap e b.t % 2 ^ 32 ∧ v.rdNat (q.block + 0x34) 4 = 1 ∧
      s.sameMemBut v ((((State.callArrays e b).drop 1).flatMap fun x => (List.range x.2).map (x.1 + ·)) ++
        (List.range 16).map (q.block + 0x28 + ·) ++ if q.ev = true then [] else steps) ∧
      (q.ev = true → v.rtu.stepSat = s.rtu.stepSat ∧ v.rtu.evcalls = satAdd32 s.rtu.evcalls 1) ∧
      (q.ev = false → v.rtu.evcalls = s.rtu.evcalls ∧
        ((∀ x ∈ (State.callArrays e b).drop 1, ∀ i < x.2, x.1 + i ∉ steps) → (∀ i < 16, q.block + 0x28 + i ∉ steps) →
          (v.rtu.stepSat = true ↔ s.rtu.stepSat = true ∨ ∃ i < Route.nexp e, 2 ^ 32 ≤ total i) ∧
          ∀ i < Route.nexp e, v.rdNat (State.rstep base b.layer i) 4 = min (total i) 0xFFFFFFFF)) ∧
      ((v.tile q.p).tally q.t).toNat = (((s.tile q.p).tally q.t).toNat + 1) % 2 ^ 32 ∧
      ∀ r, r ≠ q.p → v.tile r = s.tile r

/-! ### Memory ports, pools and update engines (chapter 09) -/

/-- While the module runs, a DDR read delivers 64 bytes, zeros from a poisoned access; an uncorrectable one poisons, counts and records; a
masked write stores its bytes and a whole write clears the poison; the scrubber raises no fault; retraining takes one rank, at most two
channels at once (R257 to R261). That a write outside fitted DDR is the fault notFittedDdr is log 7. -/
def Obligations.PortsServeDdrRequests : Prop :=
  ∀ (s : State) (addr : BitVec 48) (data : Vector Byte 64) (mask : BitVec 64) (rank dev : BitVec 4) (req : Requester) (i : PortId)
    (rk : BitVec 3) (v : W32), s.Inv → s.powered = true → s.power.shutdown = false →
    let a := addr.toNat / 64 * 64
    let ch := State.channelOf a
    (a + 64 ≤ s.part.ddrEnd →
      (s.isPoisoned a = false → exec (.ddrRead addr .clean req) s =
        .next { s with readData := (List.range 64).map fun k => s.peek (a + k) }) ∧
      (s.isPoisoned a = false → ∃ t, exec (.ddrRead addr (.corrected rank dev) req) s = .next t ∧ t.mem = s.mem ∧
        t.tiles = s.tiles ∧ t.poisoned = s.poisoned ∧ (t.port ch).ce = satAdd32 (s.port ch).ce 1 ∧ (t.port ch).ceRank = rank ∧
        (t.port ch).ceDev = dev ∧ t.launch = s.launch) ∧
      (∃ t, exec (.ddrRead addr .uncorrectable req) s = .next t ∧ t.isPoisoned a = true ∧
        t.readData = List.replicate 64 0 ∧ (t.port ch).ue = satAdd32 (s.port ch).ue 1 ∧
        (s.launchActive = false → t.mem = s.mem ∧ t.tiles = s.tiles ∧ t.launch = s.launch) ∧
        (s.launchActive = true → 4 ≤ t.launch.pendingEnd.toNat)) ∧
      (∃ t, exec (.ddrWrite addr data mask) s = .next t ∧
        (∀ k : Fin 64, t.peek (a + k.1) = if mask.getLsbD k.1 then data[k] else s.peek (a + k.1)) ∧
        s.sameMemBut t ((List.range 64).map (a + ·)) ∧ t.tiles = s.tiles ∧
        t.isPoisoned a = (s.isPoisoned a && decide (mask ≠ BitVec.allOnes 64))) ∧
      (s.isPoisoned a = false → exec (.patrolScrub addr .clean) s = .next s) ∧
      (∃ t, exec (.patrolScrub addr .uncorrectable) s = .next t ∧ t.isPoisoned a = true ∧ t.launch = s.launch ∧
        t.tiles = s.tiles ∧ t.mem = s.mem ∧ (t.port ch).ue = satAdd32 (s.port ch).ue 1)) ∧
    (s.part.ddrEnd < a + 64 → exec (.ddrWrite addr data mask) s = .fault .notFittedDdr) ∧
    (s.ports[i].retrain = false → (s.ports.toList.filter (·.retrain)).length < 2 → exec (.rankRetrain i rk .begins) s =
      .next { s with ports := s.ports.set i { s.ports[i] with retrain := true, rank := rk } }) ∧
    (s.ports[i].retrain = true ∨ 2 ≤ (s.ports.toList.filter (·.retrain)).length → exec (.rankRetrain i rk .begins) s = .next s) ∧
    (s.ports[i].retrain = true → exec (.rankRetrain i rk .ends) s =
      .next { s with ports := s.ports.set i { s.ports[i] with retrain := false, retrains := s.ports[i].retrains + 1 } }) ∧
    exec (.memUeAddrClear i v) s =
      .next { s with ports := s.ports.set i (if v.getLsbD 31 then { s.ports[i] with ueAddr := 0, ueValid := false } else s.ports[i]) }

/-- ATOM: the six functions, the old value in s[sd], no other byte; without effect while its PORT queue is full (log 4, log 12); cause
0x60 for a misaligned or unfitted location, 0x01 for an unassigned fn and 0x02 for a register that its fn does not use (R266). -/
def Obligations.AtomIsOneReadModifyWrite : Prop :=
  (∀ (s : State) (p : TileId) (fn : BitVec 3) (sd sa sb sc : BitVec 5) (rel : Bool), s.Inv → s.poisoned = [] → s.ready p [sd, sa, sb, sc] →
    fn.toNat < 6 → (fn ≠ 4 → sc = 0) → (fn = 5 → sb = 0) →
    let u := s.tile p
    let a := (u.reg sa).toNat
    let n := if fn = 0 then 4 else 8
    let old := s.rdNat a n
    let b := (u.reg sb).toNat
    (a % n = 0 → a + n ≤ s.part.ddrEnd → s.portReady p → (rel = true → u.busyUpTo u.issueNo = false) →
      (fn ≠ 5 → s.meetsCounter a n = false) → ∃ t, exec (.atom p fn sd sa sb sc rel 0) s = .next t ∧
      t.tile p = (u.advance 8 (fn != 5)).setReg sd (BitVec.ofNat 64 old) ∧ (∀ q, q ≠ p → t.tile q = s.tile q) ∧
      s.sameMemBut t ((List.range n).map (a + ·)) ∧
      t.rdNat a n = match fn.toNat with
        | 0 => (old + b % 2 ^ 32) % 2 ^ 32
        | 1 => (old + b) % 2 ^ 64
        | 2 => max old b
        | 3 => b
        | 4 => if old = (u.reg sc).toNat then b else old
        | _ => old) ∧
    (a % n = 0 → a + n ≤ s.part.ddrEnd → s.portFull p = true → exec (.atom p fn sd sa sb sc rel 0) s = .next s) ∧
    (a % n ≠ 0 ∨ s.part.ddrEnd < a + n → exec (.atom p fn sd sa sb sc rel 0) s =
      .next (s.programFault p 0x60 (Layout.atom fn sd sa sb sc rel 0)))) ∧
  (∀ (s : State) (p : TileId) (fn : BitVec 3) (sd sa sb sc : BitVec 5) (rel : Bool), s.ready p [sd, sa, sb, sc] →
    (6 ≤ fn.toNat → exec (.atom p fn sd sa sb sc rel 0) s = .next (s.programFault p 0x01 (Layout.atom fn sd sa sb sc rel 0))) ∧
    (fn.toNat < 6 → fn ≠ 4 ∧ sc ≠ 0 ∨ fn = 5 ∧ sb ≠ 0 → exec (.atom p fn sd sa sb sc rel 0) s =
      .next (s.programFault p 0x02 (Layout.atom fn sd sa sb sc rel 0))))

/-- GPOOL and GSROW store only in their destination view (GSROW also its row list) and add 1 to their tally; UPDT queues its units; an
engine's unit at a clear gate leaves the queue, and a check pass stores nothing (R268, R269, R278, R364). A unit at a clear gate is
updated by the formula of its group from its stored state, its gradient and the step, and its master, low half, moments, working copy and
stamp are stored, where the areas of the unit do not meet; no other byte changes (R272, R274 to R277). -/
def Obligations.PoolsAndUpdatesStoreOnlyTheirResults : Prop :=
  (∀ (s : State) (p : TileId) (fn : BitVec 2) (dt dd : BitVec 4) (sa sb so : BitVec 5) (rnd : BitVec 2) (grp : BitVec 8)
    (te : Bool) (t : BitVec 6) (i : PortId) (d : Desc) (ty : EType), s.Inv → s.poisoned = [] →
    let u := s.tile p
    let list := (u.reg so).toNat
    ((u.handle dd).desc = some d → s.etype d.etype = some ty →
      (s.issues (opGpool p fn dt dd sb rnd te t 0 s) → ∃ v, exec (.gpool p fn dt dd sb rnd te t 0) s = .next v ∧
        StoresInto s v p ((wholeDest u dd d).touched p ty) ∧
        (v.tile p).tally t = u.tally t + (if te then 1 else 0) ∧
        v = { s with mem := v.mem, tiles := v.tiles, ports := v.ports }) ∧
      (s.issues (opGsrow p fn dt dd sb so rnd te t 0 s) → ∃ v, exec (.gsrow p fn dt dd sb so rnd te t 0) s = .next v ∧
        StoresInto s v p ((wholeDest u dd d).touched p ty ++ (List.range 4).map (list + ·) ++
          (List.range (4 * (s.distinctRows (s.bagBlock (u.reg sb).toNat)).length)).map (s.rdNat (list + 8) 8 + ·)) ∧
        (v.tile p).tally t = u.tally t + if te then 1 else 0)) ∧
    (s.issues (opUpdt p grp sa sb 0 te t 0 s) → ∃ v, exec (.updt p grp sa sb 0 te t 0) s = .next v ∧ v.mem = s.mem ∧
      v.steps.units = s.steps.units ++ (List.range (u.reg sb).toNat).map fun k =>
        ⟨some (p, u.issueNo + 1), if te then some t else none, grp.toNat, (u.reg sa).toNat + k,
          Upd.grad s.updImage grp.toNat + 2048 * ((u.reg sa).toNat + k), s.requestAttempt, false⟩) ∧
    (s.issues (opUpdt p grp sa sb 1 te t 0 s) → ∃ v, exec (.updt p grp sa sb 1 te t 0) s = .next v ∧ v.mem = s.mem ∧
      v.steps.units = s.steps.units ++ (s.rowList (u.reg sa).toNat).zipIdx.map fun r =>
        ⟨some (p, u.issueNo + 1), if te then some t else none, grp.toNat, r.1,
          (u.reg sb).toNat + 4 * Upd.rowp s.updImage grp.toNat * r.2, s.requestAttempt, false⟩) ∧
    (∀ x, (s.engineUnits i.1).find? (fun x => s.gateClear x || (!x.checked && x.attempt == s.steps.a)) = some x →
      (s.gateClear x = true → ∃ v, exec (.unitUpdate i) s = .next v ∧ v.steps.units = s.steps.units.erase x) ∧
      (s.gateClear x = false → Upd.stashLen s.updImage / 64 < s.stashUsed i.1 + State.stashSize s.updImage x.grp →
        ∃ v, exec (.unitUpdate i) s = .next v ∧ v.mem = s.mem ∧ v.tiles = s.tiles ∧ v.steps.stash = s.steps.stash ∧
          v.steps.units = s.steps.units.map fun z => if z = x then { z with checked := true } else z))) ∧
  (∀ (s : State) (i : PortId) (x : UpdUnit) (ft : FormatTable) (ddrEnd : Nat) (mp : Option Image) (ty : EType), s.Inv → s.poisoned = [] →
    let u := s.updImage
    let g := x.grp
    let k := x.unit
    let el (base j : Nat) : Nat := State.unitAddr u g base k + 4 * j
    (s.engineUnits i.1).find? (fun x => s.gateClear x || (!x.checked && x.attempt == s.steps.a)) = some x → s.gateClear x = true →
    updGroupValid ft ddrEnd mp u g = true → s.etype (Upd.wtype u g) = some ty → disjoint (unitAreas u g k ty) = true →
    ∃ v, exec (.unitUpdate i) s = .next v ∧ s.sameMemBut v ((unitAreas u g k ty).flatMap fun a => (List.range a.2).map (a.1 + ·)) ∧
      v.rd32 (Upd.stamps u g + 4 * k) = BitVec.ofNat 32 s.stepT ∧
      (∀ j < Upd.elems u g, ∃ y : OptElem,
        UpdateRule (s.optArgs u g k s.stepT) (s.optElem u g k j) (FVal.mul (s.rdB32 (x.gaddr + 4 * j)) (Upd.gscale u g)) y ∧
        let master := (b32Bits y.w).toNat
        let moment (m : FVal) : Nat := (Fmt.bf16.conv .rne 0 m).code
        v.rdNat (el (Upd.master u g) j) 4 = master ∧
        (Upd.comp u g = true → v.rdNat (el (Upd.mlo u g) j) 4 = (b32Bits (FVal.sub y.w (Fmt.b32.decode master))).toNat) ∧
        (Upd.mbf16 u g = true → v.rdNat (el (Upd.m1 u g) j) 4 % 65536 = moment y.m1 % 65536 ∧
          (Upd.opt u g ≠ 1 → Upd.opt u g ≠ 2 → v.rdNat (el (Upd.m1 u g) j) 4 / 65536 = moment y.m2 % 65536)) ∧
        (Upd.mbf16 u g = false → (Upd.m1 u g ≠ 0 → v.rdNat (el (Upd.m1 u g) j) 4 = (b32Bits y.m1).toNat) ∧
          (Upd.m2 u g ≠ 0 → Upd.opt u g ≠ 1 → Upd.opt u g ≠ 2 → v.rdNat (el (Upd.m2 u g) j) 4 = (b32Bits y.m2).toNat))) ∧
      let run := convRun ty (Rnd.ofCode (Upd.wrnd u g)) ((List.range (Upd.elems u g)).map fun j => ((v.optElem u g k j).w, 0))
      (∀ j z, run.codes[j]? = some z → v.rdBits (fun a => a) (woutBit u g k ty + j * ty.width) ty.width = z % 2 ^ ty.width) ∧
      (ty.block ≠ 0 → ∀ j z, run.scales[j]? = some z → v.rdNat (woutScale u g k ty + j * ty.scaleBytes) ty.scaleBytes =
        z % 256 ^ ty.scaleBytes))

/-! ### The light path (chapter 10) -/

/-- Lock errors beyond 6 GHz, a peer that reports HOLD, the margin test and its bound, the failed pair's 20 ms and its retry, and light
coming and going move a pair of a running module through its states; at the 20 ms limit a relock wins (R297, R298, R300 to R302, R309). A
held test goes back to ACQUIRE, which ends within 1.5 GHz, a ring takes no value outside its search, and a test counts the errors of its
codewords (DEDUCED, log 57). -/
def Obligations.PairsMoveThroughTheirStates : Prop :=
  ∀ (s : State) (q : PlaneId) (c : PairId) (etx erx ltx lrx slew temp : BitVec 16) (w : Codeword) (errors : Nat) (on : Bool), s.Inv →
    s.powered = true →
    let x := s.pair q c
    let k := s.searches q c
    let heater := (s.plane q).heater ltx
    let worst := max etx.toNat erx.toNat
    let keepsRegs (t : State) : Prop := t.mem = s.mem ∧ ∀ p, (t.tile p).regs = (s.tile p).regs
    (∃ t, exec (.ringLockUpdate q c etx erx ltx lrx slew temp) s = .next t ∧ t.mem = s.mem ∧ t.tiles = s.tiles ∧
      (t.plane q).dieTemp = temp ∧
      (k.1 = none → (t.pair q c).tx.err = etx ∧ (t.pair q c).tx.heater = heater) ∧
      (∀ z, k.1 = some z → z.admits heater = false → (t.pair q c).tx.err = x.tx.err ∧ (t.pair q c).tx.heater = x.tx.heater) ∧
      (k.2 = none → (t.pair q c).rx.err = if x.pauseLeft = 0 then erx else x.rx.err) ∧
      (k = (none, none) → x.pauseLeft = 0 → (t.pair q c).calm = if worst ≤ 15 then x.calm + 1 else 0) ∧
      (60 < worst → x.pauseLeft = 0 → x.state = .up → (t.pair q c).state = .hold ∧ (t.pair q c).holdCause = 0 ∧
        (t.pair q c).holds = satAdd32 x.holds 1 ∧ (t.plane q).event.getLsbD 0 = true) ∧
      (60 < worst → x.pauseLeft = 0 → x.state = .test → (t.pair q c).state = .acquire) ∧
      (worst ≤ 15 → k = (none, none) → x.pauseLeft = 0 → x.state = .acquire → x.lock = true → (t.pair q c).state = .test) ∧
      (worst ≤ 60 → x.state = .up → (t.pair q c).state = .up)) ∧
    (∃ t, exec (.codeword q c w) s = .next t ∧ keepsRegs t ∧
      (t.pair q c).clean = (if dataDiscarded w then some 0 else x.clean.map (· + 640)) ∧
      (w.correctable = false → (t.pair q c).fecUnc = satAdd32 x.fecUnc 1) ∧
      (w.correctable = true → (t.pair q c).fecCorr = satAdd32 x.fecCorr w.corrected) ∧
      (x.state = .up → w.correctable = true → w.colour.toNat = (32 - c.1) % 32 → w.fso = 0x3FF → w.kind = 0 →
        x.lock = true → (x.recent.filter id).length < 2 →
          (w.rxState = 3 → x.pauseLeft ≤ 1 → (t.pair q c).state = .hold ∧ (t.pair q c).holdCause = 3) ∧
          (w.rxState ≠ 3 → (t.pair q c).state = .up ∧ (t.pair q c).lock = true)) ∧
      (x.state = .up → 1 < x.pauseLeft → (t.pair q c).state = .up)) ∧
    (x.state = .test → x.testCount + errors ≤ 1030792 → ∃ t, exec (.marginTestDone q c errors) s = .next t ∧
      (t.pair q c).state = .up ∧ (t.pair q c).testErr = satAdd32 0 (x.testCount + errors) ∧ keepsRegs t) ∧
    (x.state = .test → 1030792 < x.testCount + errors → ∃ t, exec (.marginTestDone q c errors) s = .next t ∧
      (t.pair q c).state = .out ∧ (t.pair q c).outMargin = true ∧ (t.plane q).event.getLsbD 3 = true) ∧
    (x.state = .hold → max x.tx.err.toNat x.rx.err.toNat ≤ 15 → 10 ≤ x.calm → x.lock = true → x.peerRx = 2 →
      ∃ t, exec (.holdExit q c) s = .next t ∧ exec (.pairFail q c) s = .next t ∧ (t.pair q c).state = .up ∧ keepsRegs t) ∧
    (x.state = .hold → 15 < max x.tx.err.toNat x.rx.err.toNat ∨ x.calm < 10 ∨ x.lock = false ∨ x.peerRx ≠ 2 →
      exec (.holdExit q c) s = .next s ∧
      ∃ t, exec (.pairFail q c) s = .next t ∧ (t.pair q c).state = .out ∧ (t.pair q c).failed = true ∧
        (t.pair q c).unacked = [] ∧ (t.plane q).event.getLsbD 1 = true) ∧
    (x.state = .out → (s.plane q).run = true →
      (x.failed = true → ∃ t, exec (.pairRetry q c) s = .next t ∧ t = s.setPair q c (t.pair q c) ∧
        (s.lanesDark = false → (t.pair q c).state = .acquire ∨ (t.pair q c).state = .test) ∧
        (s.lanesDark = true → (t.pair q c).state = .out)) ∧
      (x.outMargin = true → x.light = false → ∃ t, exec (.noLightTimeout q c) s = .next t ∧
        (s.lanesDark = false → t = s.setPair q c (t.pair q c) ∧ ((t.pair q c).state = .acquire ∨ (t.pair q c).state = .test)) ∧
        (s.lanesDark = true → t = s))) ∧
    (∃ t, exec (.peerLight q c on) s = .next t ∧ t = s.setPair q c (t.pair q c) ∧ (t.pair q c).light = on ∧
      (on = true → x.state = .dark → (s.plane q).run = true →
        (s.lanesDark = false → (t.pair q c).state = .acquire ∨ (t.pair q c).state = .test) ∧
        (s.lanesDark = true → (t.pair q c).state = .dark)) ∧
      (x.state = .up → (t.pair q c).state = .up))

/-- Feed-forward, lock seeds, OPT_CTL and the event registers of the planes and the combs (R295, R297, R309). The combs of a running
module: the choice at start, warm-up of the spare, the switch to it, a failed comb with and without a spare, and cause 0x87 when none is
left (R288, R304 to R307). -/
def Obligations.PlanesAndCombsFollowTheirRules : Prop :=
  (∀ (s : State) (q : PlaneId) (powers : List (TileId × Nat)) (r : PlaneId) (c : PairId)
    (htx hrx : Option (BitVec 16)) (v : W32), s.Inv → s.powered = true →
    let x := s.plane q
    let withPlane (y : Plane) : State := { s with light := { s.light with planes := s.light.planes.set q y } }
    let near := ((powers.filter fun w => nearTile q w.1 && s.l2p.contains w.1).map (·.2)).sum
    let inSearch (k : Option Search) (h : BitVec 16) : Prop := ∀ z, k = some z → z.admits h = true
    let y := s.pair r c
    (x.ffEn = true → x.tuneValid = true → exec (.tuneFeedforward q powers) s = .next (withPlane
      { x with offsetNum := (x.offsetAt near).1, offsetDen := (x.offsetAt near).2 })) ∧
    (x.ffEn = false → exec (.tuneFeedforward q powers) s = .next s) ∧
    (s.light.combs.pilots = false → exec (.ringAcquired [(r, c, htx, hrx)]) s = .next s) ∧
    (s.light.combs.pilots = true → ∃ t, exec (.ringAcquired [(r, c, htx, hrx)]) s = .next t ∧
      t.light.combs = { s.light.combs with pilots := false } ∧ t.nv.oldSeeds = s.nv.seeds ∧ t.nv.seedCopy = !s.nv.seedCopy ∧
      let z := t.pair r c
      let now := (s.plane r).dieTemp
      (∀ h, htx = some h → inSearch (s.searches r c).1 h → z.tx.seed = some ⟨h, now⟩ ∧ z.tx.heater = h) ∧
      (∀ h, htx = some h → ¬ inSearch (s.searches r c).1 h → z.tx = y.tx) ∧ (htx = none → z.tx = y.tx) ∧
      (∀ h, hrx = some h → y.lock = true → inSearch (s.searches r c).2 h → z.rx.seed = some ⟨h, now⟩ ∧ z.rx.heater = h) ∧
      (hrx = none ∨ y.lock = false → z.rx = y.rx) ∧
      (z.tx.seed ≠ none ∨ z.rx.seed ≠ none → (pairKey r c, z.tx.seed, z.rx.seed) ∈ t.nv.seeds)) ∧
    (s.light.combs.pilots = true → y.state ≠ .test → y.state ≠ .up → (s.searches r c).1 = some (match y.tx.seed with
      | some k => ⟨some k.heater.toNat, 1000⟩
      | none => ⟨none, 0⟩)) ∧
    (x.run = false → v.getLsbD 0 = true → x.tuneValid = true →
      ∃ t, exec (.optRun q v) s = .next t ∧ t = { s with light := { s.light with
          planes := s.light.planes.set q { x with ffEn := v.getLsbD 1, run := true }, pairs := t.light.pairs } } ∧
        ∀ r c, (s.pair r c).light = false → t.pair r c = s.pair r c) ∧
    (x.run = false → v.getLsbD 0 = true → x.tuneValid = false →
      exec (.optRun q v) s = .next (withPlane { x with event := x.event ||| 0x20 })) ∧
    (x.run = true → v.getLsbD 0 = false → ∃ t, exec (.optRun q v) s = .next t ∧ (t.plane q).run = false ∧
      ∀ c, (t.pair q c).state = .out ∧ (t.pair q c).failed = true) ∧
    exec (.optEventClear q v) s = .next (withPlane { x with event := x.event &&& ~~~ v.setWidth 6 }) ∧
    exec (.cmbEventClear v) s = .next { s with light := { s.light with combs :=
      { s.light.combs with event := s.light.combs.event &&& ~~~ v.setWidth 7 } } }) ∧
  (∀ (s : State) (bOk : Bool) (power : Vector (BitVec 16) 32) (c : PairId) (mw : BitVec 16)
    (est : List (PlaneId × PairId × BitVec 8)), s.Inv → s.powered = true →
    let x := s.light.combs
    let withCombs (y : Combs) : State := { s with light := { s.light with combs := y } }
    (∃ t, exec (.combWorking true bOk power) s = .next t ∧ t = { s with light := { s.light with pairs := t.light.pairs, combs := { x with
        a := .working, b := if bOk then .idle else .failed, active := false, combNone := false, power := power, ref := power,
        event := if bOk then x.event else x.event ||| 0x10, pilots := true } } } ∧
      ∀ q k, if (s.pair q k).light = true ∧ (s.pair q k).state = .dark ∧ (s.plane q).run = true ∧ s.power.optShutdown = false
        then (t.pair q k).state = .acquire ∨ (t.pair q k).state = .test else t.pair q k = s.pair q k) ∧
    (exec (.combWorking false false power) s = .next (withCombs { x with
      a := .failed, b := .failed, active := false, combNone := true, event := x.event ||| 0x18, pilots := false })) ∧
    (x.spare = .locking → exec .spareLocked s = .next (withCombs (x.setSpare .locked))) ∧
    (x.spare = .idle → exec .forceWarm s = .next (withCombs { x.setSpare .locking with event := x.event ||| 1 })) ∧
    (x.spare = .locked → ∃ t, exec .forceSwitch s = .next t ∧ t.light.combs.active = !x.active ∧ t.mem = s.mem ∧
      t.light.combs.event.getLsbD 1 = true ∧ t.light.pauses.length = s.light.pauses.length + 1024 ∧
      ∀ q k, (t.pair q k).state = (s.pair q k).state) ∧
    (x.spare ≠ .locked → exec .forceSwitch s = .next (withCombs { x with event := x.event ||| 0x40 })) ∧
    (x.combNone = false → x.spare = .locked → ∃ t, exec (.combFail x.active) s = .next t ∧ t.light.combs.active = !x.active ∧
      t.light.combs.spare = .failed ∧ t.launch = s.launch) ∧
    (x.combNone = false → x.spare = .failed → s.launchActive = true → ∃ t, exec (.combFail x.active) s = .next t ∧
      t.light.combs.event.getLsbD 5 = true ∧ 4 ≤ t.launch.pendingEnd.toNat ∧
      (s.launch.faultValid = false → t.launch.faultCause = 0x87 ∧ t.launch.faultTile = 0x7FF) ∧
      ∀ q k, (t.pair q k).state ≠ .up) ∧
    (∃ t, exec (.tapPowerDrop c mw) s = .next t ∧ t.mem = s.mem ∧
      ((x.ref[c]).toInt - mw.toInt < 300 → t = withCombs { x with power := x.power.set c mw })) ∧
    (∃ t, exec (.marginEstimate est) s = .next t ∧ t.mem = s.mem ∧ ∀ p, (t.tile p).regs = (s.tile p).regs))

/-- Received frames: a bad CRC is counted, with the buffer freed and no NAK; the next number in order is taken once and goes to the
transport, a repeated one acknowledged again, a gap asked for once per 2 µs; a frame over discarded lane data and frames in HOLD are
discarded with their buffer freed; a timeout resends from the oldest unless such a resend runs or a NAK had the same frames resent (R293,
R309, R311 to R314; the freeing, the 157 codewords and what counts as the same frames are DEDUCED, log 61). -/
def Obligations.LinkLayerTakesFramesInOrder : Prop :=
  ∀ (s : State) (q : PlaneId) (c : PairId) (h : RxHeader) (f : Frame) (ok : Bool), s.Inv → s.powered = true →
    let x := s.pair q c
    let cut : Prop := ∃ n, x.clean = some n ∧ n < h.ago
    let first := x.unacked.head?.map (·.seq)
    let same : Prop := ∃ r, x.lastResend = some r ∧ r.byNak = true ∧ first = some r.first
    (cut ∨ x.state = .hold → exec (.dataFrame q c h ok f) s = .next (s.setPair q c { x with freed := x.freed + 1 }) ∧
      exec (.controlFrame q c h ok) s = .next s) ∧
    (¬ cut → x.state = .up →
      (exec (.dataFrame q c h false f) s = .next (s.setPair q c { x with
        crcErr := satAdd32 x.crcErr 1, freed := x.freed + 1, ackDue := true })) ∧
      (exec (.controlFrame q c h false) s = .next (s.setPair q c { x with crcErr := satAdd32 x.crcErr 1 })) ∧
      (∃ u t, exec (.dataFrame q c h true f) s = .next t ∧ t = (if h.seq = x.rxNext then u.transport q c f else u) ∧
        u.mem = s.mem ∧ (u.pair q c).peerMargin = h.margin ∧ (u.pair q c).lastCredit = h.credit ∧ (u.pair q c).state = .up ∧
        (u.pair q c).ackDue = true ∧ (u.pair q c).freed = x.freed + 1 ∧
        (h.seq = x.rxNext → (u.pair q c).rxNext = x.rxNext + 1 ∧ (u.pair q c).nakDue = false) ∧
        (h.seq ≠ x.rxNext → (u.pair q c).rxNext = x.rxNext) ∧
        (h.seq ≠ x.rxNext → 256 ≤ (x.rxNext - 1 - h.seq).toNat →
          (x.nakFor ≠ some x.rxNext ∨ x.nakWait = 0 →
            (u.pair q c).nakDue = true ∧ (u.pair q c).nakFor = some x.rxNext ∧ (u.pair q c).nakWait = 157) ∧
          (x.nakFor = some x.rxNext → x.nakWait ≠ 0 → (u.pair q c).nakDue = x.nakDue))) ∧
      (∃ t, exec (.controlFrame q c h true) s = .next t ∧ t.mem = s.mem ∧ (t.pair q c).rxNext = x.rxNext ∧
        (t.pair q c).peerMargin = h.margin ∧ (t.pair q c).state = .up)) ∧
    (x.state = .up → x.unacked ≠ [] → x.toResend = 0 ∨ x.resent ≠ first → ¬ same →
      ∃ t, exec (.replayTimeout q c) s = .next t ∧ (t.pair q c).unacked = x.unacked ∧ t.mem = s.mem ∧ t.tiles = s.tiles ∧
        let sent := if x.peerRx = 2 then min x.credits x.unacked.length else 0
        (t.pair q c).toResend = x.unacked.length - sent ∧ (t.pair q c).credits = x.credits - sent ∧
        (t.pair q c).resent = if sent = x.unacked.length then none else first) ∧
    (x.state = .up → x.toResend = 0 → same → exec (.replayTimeout q c) s = .next (s.setPair q c { x with lastResend := none })) ∧
    (x.unacked = [] ∨ 0 < x.toResend ∧ x.resent = first → exec (.replayTimeout q c) s = .next s) ∧
    (x.state = .up → exec (.controlFrameDue q c) s = .next ({ s with light := { s.light with sent := s.light.sent ++
      [(⟨q, c, ⟨x.txSeq, x.rxNext - 1, x.nakDue, false, x.freed, x.margin⟩, none⟩ : LaneFrame)] } }.setPair q c
        { x with ackDue := false, nakDue := false }))

/-- Hardware faults of a tile and of the module; a write of a host tally and of TLE_SIGNAL; REVOKE from the host; the bits that a write of
1 clears (R35, R147, R158, R169, R173, R174). The interrupt controllers follow their sources: in a domain of the APLIC that an active
source reaches, a rise of its rectified input makes it pending, or, enabled, sends its MSI to the interrupt file of its target; a level
source is pending no more when its input is low; and the levels are those of the bits that R395 lists (R395, R453; the APLIC's rules are
PRESUMED, log 106). -/
def Obligations.LaunchEventsFillTheirRegisters : Prop :=
  (∀ (s : State) (p : TileId) (cause : Byte) (n : BitVec 6) (v : W32) (e : ListEntry), s.Inv → s.poisoned = [] →
    s.powered = true →
    let l := s.launch
    (s.launchActive = true → p ∈ s.l2p → 0x80 ≤ cause.toNat → cause.toNat ≤ 0x85 →
      ∃ t, exec (.hardwareFault (some p) cause) s = .next t ∧ (t.tile p).state = .faulted ∧ 4 ≤ t.launch.pendingEnd.toNat ∧
        t.mesh.tileFault = true ∧ (l.faultValid = false → t.launch.faultTile.toNat = p.1 ∧ t.launch.faultCause = cause ∧
          t.launch.faultHardware = true)) ∧
    (0x87 ≤ cause.toNat → cause.toNat ≤ 0x8D →
      (s.launchActive = false → exec (.hardwareFault none cause) s = .next s) ∧
      (s.launchActive = true → ∃ t, exec (.hardwareFault none cause) s = .next t ∧ 4 ≤ t.launch.pendingEnd.toNat ∧
        (l.faultValid = false → t.launch.faultTile = 0x7FF ∧ t.launch.faultCause = cause ∧ t.launch.faultHardware = true))) ∧
    (∃ t, exec (.hstTallyWrite ⟨n.toNat, n.isLt⟩ v) s = .next t ∧ t = { s with hostTallies := t.hostTallies, launch := t.launch } ∧
      ∀ k, t.hostTally k = if k = n then v else s.hostTally k) ∧
    (s.pruned p = false → s.launchActive = true → s.inSet p = true → ∃ t, exec (.tleSignalWrite p v) s = .next t ∧ t.mem = s.mem ∧
      (∀ q, q ≠ p → t.tile q = s.tile q) ∧ ∀ k, (t.tile p).tally k =
        if k = v.setWidth 6 then (s.tile p).tally k + BitVec.ofNat 32 (v.toNat / 256) else (s.tile p).tally k) ∧
    (s.pruned p = false → s.launchActive = false ∨ s.inSet p = false → exec (.tleSignalWrite p v) s = .next s) ∧
    (s.pruned p = true → s.mesh.svcValid = false → exec (.tleSignalWrite p v) s = .next { s with mesh := { s.mesh with
      svcValid := true, svcTile := BitVec.ofNat 11 p.1, svcCause := 1, svcCount := 1 } }) ∧
    (v.getLsbD 31 = true → s.power.shutdown = false →
      (s.listEntry (v.setWidth 12) = some e → l.run = true → l.revokeBusy = false → e.noRevoke = false →
        ∃ t, exec (.hstRevokeGo v) s = .next t ∧ t.listL e = min (s.listL e) l.revokeBound.toNat ∧ t.listC e = s.listC e ∧
          t.launch.revokeResult.toNat = max (min (s.listL e) l.revokeBound.toNat) (s.listC e) ∧ t.launch.revokeDone = true ∧
          t.tiles = s.tiles ∧ s.sameMemBut t ((List.range 4).map (e.ctr + 4 + ·))) ∧
      (l.run = false → exec (.hstRevokeGo v) s = .next { s with launch := { l with revokeErr := true } })) ∧
    exec (.hstLaunchStatusClear v) s = .next { s with launch := { l with
      doneIrq := l.doneIrq && !v.getLsbD 19, endIrq := l.endIrq && !v.getLsbD 20,
      writeWhileRun := l.writeWhileRun && !v.getLsbD 21 } } ∧
    exec (.hstRevokeStatusClear v) s = .next { s with launch := { l with
      revokeErr := l.revokeErr && !v.getLsbD 1, revokeDone := l.revokeDone && !v.getLsbD 2 } }) ∧
  (∀ (s : State) (m : Bool) (n : Nat), 0 < n → n < 64 →
    let x := s.irq.domain m
    let t := s.settleIrq.irq
    let wire := if m = true then s.sourceLevel n else s.irq.machine.delegated n && s.sourceLevel n
    let input := if x.mode n = 5 ∨ x.mode n = 7 then !wire else wire
    let target := (x.target.getD n 0).toNat
    let files (z : Irq) : Vector Imsic 16 := if m = true then z.mFiles else z.sFiles
    (4 ≤ x.mode n → (t.domain m).rectified.getLsbD n = input ∧
      (input = true → x.rectified.getLsbD n = false →
        (x.ie = false ∨ x.enabled.getLsbD n = false → (t.domain m).ip.getLsbD n = true) ∧
        (x.ie = true → x.enabled.getLsbD n = true → (t.domain m).ip.getLsbD n = false ∧
          ∀ f : Imsic, (files t)[target / 2 ^ 18]? = some f → 0 < target % 2048 → target % 2048 ≤ 63 + 64 * (Config.imsicSize % 32) →
            f.eip.getLsbD (target % 2048) = true)) ∧
      (input = false → 6 ≤ x.mode n → (t.domain m).ip.getLsbD n = false)) ∧
    s.settleIrq = { s with irq := t } ∧
    (∀ (f : Imsic) (h : Nat), (files s.irq)[h]? = some f → ∃ g : Imsic, (files t)[h]? = some g ∧ ∀ j, f.eip.getLsbD j = true →
      g.eip.getLsbD j = true) ∧
    (s.sourceLevel 1 = true ↔ s.launch.doneIrq = true) ∧
    (s.sourceLevel 2 = true ↔ s.launch.endIrq = true ∨ s.launch.writeWhileRun = true) ∧
    (s.sourceLevel 3 = true ↔ s.launch.revokeDone = true ∨ s.launch.revokeErr = true) ∧
    (s.sourceLevel 4 = true ↔ s.light.combs.event ≠ 0 ∨ ∃ q : PlaneId, (s.plane q).event ≠ 0) ∧
    (s.sourceLevel 5 = true ↔ s.health.event ≠ 0) ∧
    (s.sourceLevel 6 = true ↔ ∃ i : PortId, (s.ports[i]).ueValid = true ∨ (s.ports[i]).trainFail = true) ∧
    (s.sourceLevel 7 = true ↔ s.rtu.errValid = true) ∧
    (s.sourceLevel 8 = true ↔ s.mesh.svcValid = true ∨ s.mesh.tileFault = true) ∧ (s.sourceLevel 9 = true ↔ s.power.event ≠ 0) ∧
    (∀ e : EthId, s.sourceLevel (10 + e.1) = true ↔ (s.ethPort e).event ≠ 0) ∧ (s.sourceLevel 15 = true ↔ s.sec.event ≠ 0) ∧
    (s.sourceLevel 16 = true ↔ s.boot.flashDone = true ∨ s.boot.flashErr = true) ∧ (16 < n → s.sourceLevel n = false))

/-! ### The fabric (chapter 11) -/

/-- JOIN and CONFIRM messages: held before acceptance, one of each sender; a JOIN of another plan or tag is cause 0x79; J is the AND of
every present mask; JOINMS without a join is cause 0x78; an ABORT of the job ends the launch, with cause 0x89 where the sender's END was
HWFAULT, and any other is discarded (R326, R334, R351, R467). An ABORT is judged by its ranks only once the job is joined (log 66). -/
def Obligations.JoinFormsFromItsMessages : Prop :=
  ∀ (s : State) (m : JoinMsg) (n : ConfirmMsg) (o : Origin) (e : BitVec 3), s.Inv → s.powered = true →
    let discarded : State := { s with fabric := { s.fabric with discard := satAdd32 s.fabric.discard 1 } }
    (s.fabric.job = none → exec (.abort o e) s = .next discarded) ∧
    (s.job ≠ none → s.fabric.job = none → exec (.join m) s = .next discarded ∧ exec (.confirm n) s = .next discarded) ∧
    (s.job = none → exec (.join m) s = .next { s with fabric := { s.fabric with
        heldJoins := s.fabric.heldJoins.filter (fun x => x.fpr != m.fpr) ++ [m] } } ∧
      exec (.confirm n) s = .next { s with fabric := { s.fabric with
        heldConfirms := s.fabric.heldConfirms.filter (fun x => x.fpr != n.fpr) ++ [n] } }) ∧
    (∀ b j, s.job = some b → s.fabric.job = some j → s.launchActive = true →
      let others := (maskRanks j.present).filter (· != j.rank)
      let own : Bool := m.seq.toNat == Plan.seq j.plan && m.check == Plan.check j.plan && m.jobtag == b.jobtag
      (j.joined = false → own = false → ∃ t, exec (.join m) s = .next t ∧ 3 ≤ t.launch.pendingEnd.toNat ∧
        (s.launch.faultValid = false → t.launch.faultCause = 0x79 ∧ t.launch.faultTile = 0x7FF)) ∧
      (∀ d, j.j = none → j.joined = false → own = true → State.recordOf j.plan (Plan.nmemb j.plan) m.fpr = some d →
        let joins := (d, m.present) :: j.joins.filter fun x => x.1 != d
        ((∃ r ∈ others, ∀ x ∈ joins, x.1 ≠ r) → exec (.join m) s = .next { s with fabric := { s.fabric with
          job := some { j with joins := joins } } }) ∧
        ((∀ r ∈ others, ∃ x ∈ joins, x.1 = r) → ∃ t k, exec (.join m) s = .next t ∧ t.fabric.job = some k ∧
          k.j = some (joins.foldl (fun a x => a &&& x.2) j.present))) ∧
      (∀ d, j.j = none → n.seq.toNat = Plan.seq j.plan → n.check = Plan.check j.plan → n.jobtag = b.jobtag → j.joined = false →
        State.recordOf j.plan (Plan.nmemb j.plan) n.fpr = some d → (∃ r ∈ others, ∀ x ∈ j.joins, x.1 ≠ r) →
        exec (.confirm n) s = .next { s with fabric := { s.fabric with
          job := some { j with confirms := (d, n.j) :: j.confirms.filter fun x => x.1 != d } } }) ∧
      (j.joined = true → exec .joinTimeout s = .next s) ∧
      (j.joined = false → ∃ t, exec .joinTimeout s = .next t ∧ 3 ≤ t.launch.pendingEnd.toNat ∧
        (s.launch.faultValid = false → t.launch.faultCause = 0x78 ∧ t.launch.faultTile = 0x7FF)) ∧
      (o.tag = b.jobtag → j.joined = false ∨ o.src.toNat < j.members.length ∧ o.dst.toNat = j.ownRank →
        ∃ t, exec (.abort o e) s = .next t ∧ t.launch.st = 3 ∧ (if e = 4 then 4 else 2) ≤ t.launch.pendingEnd.toNat ∧
          (e = 4 → s.launch.faultValid = false → t.launch.faultCause = 0x89 ∧ t.launch.faultTile = 0x7FF)) ∧
      (o.tag ≠ b.jobtag ∨ j.joined = true ∧ (j.members.length ≤ o.src.toNat ∨ o.dst.toNat ≠ j.ownRank) →
        exec (.abort o e) s = .next discarded))

/-- Discovery while the module runs: an UP data pair sends its nonce, once drawn always the same; a frame maps its pair to the module it
names unless R318 finds a conflict, which leaves every pair of the plane that names that module unmapped, and counts as discarded where it
does not name the peer of its pair; 5 ms complete the map (R316 to R318). A relay counts a graft frame and forwards it, VIA cleared, over
the pair that R330 picks, or returns a NOROUTE on its pair; a NOROUTE that comes back makes the weight of the graft of the frame it
returns 0 and counts a resent frame, and one of another job or rank is discarded (R330, R331, R334; the NOROUTE's spelling and when its
ranks are judged are the model's, log 66). -/
def Obligations.DiscoveryAndRelays : Prop :=
  (∀ (s : State) (q : PlaneId) (c : PairId) (l : List Byte), s.Inv → s.powered = true →
    let x := s.mapEntry q c
    let fpr := Discovery.fpr l
    (c ≠ 0 → (s.pair q c).canSend = true → ∃ t, exec (.discoverySend q c) s = .next t ∧ t.mem = s.mem ∧ t.tiles = s.tiles ∧
      (∃ k, (t.mapEntry q c).nonceTx = some k ∧ ∀ k', x.nonceTx = some k' → k = k') ∧
      (t.pair q c).unacked.length = (s.pair q c).unacked.length + 1) ∧
    (Discovery.names q c l = false → exec (.discoveryFrame q c l) s =
      .next { s with fabric := { s.fabric with discard := satAdd32 s.fabric.discard 1 } }) ∧
    (Discovery.names q c l = true → x.valid = false → x.cand = [] → ∃ t, exec (.discoveryFrame q c l) s = .next t ∧
      t.fabric.mapReady = false ∧ t.mem = s.mem ∧ (∀ p, (t.tile p).regs = (s.tile p).regs) ∧
      (∀ r k, (r ≠ q ∨ k ∉ c :: s.rivals q c fpr) → t.mapEntry r k = s.mapEntry r k) ∧
      (∀ k ∈ s.rivals q c fpr, (t.mapEntry q k).valid = false ∧ (t.mapEntry q k).conflict = true) ∧
      (s.mapConflictFor q c fpr = false → (t.mapEntry q c).valid = true ∧ (t.mapEntry q c).auth = Discovery.auth x l ∧
        t.fabric.peers[(t.mapEntry q c).peer]? = some fpr) ∧
      (s.mapConflictFor q c fpr = true → (t.mapEntry q c).valid = false ∧ (t.mapEntry q c).conflict = true ∧
        t.fabric.mapConflict = true)) ∧
    ((∀ r k, k ≠ 0 → (s.pair r k).state = .up → (s.mapEntry r k).valid = true ∧ (s.mapEntry r k).auth = true) →
      exec .mapReady s = .next { s with fabric := { s.fabric with mapReady := true } }) ∧
    (∀ r k, k ≠ 0 → (s.pair r k).state = .up → (s.mapEntry r k).valid = false ∨ (s.mapEntry r k).auth = false →
      exec .mapReady s = .next s)) ∧
  (∀ (s : State) (q : PlaneId) (c : PairId) (f : Frame) (fpr : List Byte), s.Inv → s.powered = true →
    let discarded : State := { s with fabric := { s.fabric with
      noroute := satAdd32 s.fabric.noroute 1, discard := satAdd32 s.fabric.discard 1 } }
    (f.via = true → f.kind ≠ 5 → (s.plane q).run = true → s.fabric.relayWait = [] → ∃ t, exec (.graftRelay q c f) s = .next t ∧
      t.mem = s.mem ∧ t.tiles = s.tiles ∧
      (t.fabric.relayed[q]) = s.fabric.relayed[q] + 1 ∧
      (∀ r k, s.relayPair q f.dstid = some (some (r, k)) →
        (t.pair r k).unacked = (s.pair r k).unacked ++ [⟨(s.pair r k).txSeq, { f with via := false }, some (q, c)⟩]) ∧
      (s.relayPair q f.dstid = none → (s.pair q c).canSend = true →
        t.fabric.noroute = satAdd32 s.fabric.noroute 1 ∧
        (t.pair q c).unacked = (s.pair q c).unacked ++ [⟨(s.pair q c).txSeq, State.norouteOf (s.peerFpr q c) f, some (q, c)⟩]) ∧
      (s.relayPair q f.dstid = some none → t.fabric.relayWait = [(q, c, f)])) ∧
    (f.via = false ∨ (s.plane q).run = false → exec (.graftRelay q c f) s = .next s) ∧
    (s.fabric.job = none → exec (.noroute fpr f) s = .next discarded) ∧
    (∀ b j, s.job = some b → s.fabric.job = some j →
      f.tag ≠ b.jobtag ∨ j.joined = true ∧ (j.members.length ≤ f.src.toNat ∨ f.dst.toNat ≠ j.ownRank) →
      exec (.noroute fpr f) s = .next discarded) ∧
    (∀ b j g r d, s.job = some b → s.fabric.job = some j → f.tag = b.jobtag →
      (j.joined = true → f.src.toNat < j.members.length ∧ f.dst.toNat = j.ownRank) → s.returned f = some g →
      State.recordOf j.plan (Plan.nmod j.plan) fpr = some r → State.memberOf j g = some d →
        ∃ t k, exec (.noroute fpr f) s = .next t ∧ t.fabric.job = some k ∧
        (d, r) ∈ k.deadGrafts ∧ t.fabric.noroute = satAdd32 s.fabric.noroute 1 ∧
        t.fabric.resent = satAdd32 s.fabric.resent 1 ∧
        ((∀ m ∈ j.members, m ≠ j.rank → Plan.dweight j.plan j.rank m ≠ 0 ∧ ∃ x ∈ s.pairsOf (Plan.fpr j.plan m),
          (Plan.dplanes j.plan j.rank m).testBit x.1.1 = true ∧ s.isUp x = true) → t.mem = s.mem ∧ t.tiles = s.tiles)))

/-! ### Collectives (chapter 12) -/

/-- COLL, whatever the kind of its record, waits in the PORT queue until the join; once joined, a failing record stops its tile by the
causes of R353, and one that passes is numbered in its group or with its partner, with the value that names it in s[sd] (R326, R335,
R353). FSEND ARM binds a write slot to its blocks of a streamed reduce-scatter; FSEND SKIP accounts for its blocks and stores nothing
where no block given is the module's own (R339, R343). -/
def Obligations.CollectivesStartByTheirRecord : Prop :=
  (∀ (s : State) (p : TileId) (sd sa : BitVec 5) (te : Bool) (t : BitVec 6) (c : Instr) (j : Join), s.Inv → s.poisoned = [] →
    c ∈ ([.rscat p sd sa te t 0, .agather p sd sa te t 0, .a2a p sd sa te t 0, .bcast p sd sa te t 0, .srow p sd sa te t 0,
      .barrier p sd sa te t 0, .put p sd sa te t 0, .get p sd sa te t 0] : List Instr) →
    s.issues (collOp s c p sd sa te t 0) → s.fabric.job = some j →
    let u := s.tile p
    let a := (u.reg sa).toNat
    let r := s.rdBytes a 64
    let word := Layout.coll sd sa te t 0
    (j.joined = false → exec c s = .next { s.setTile p { u.advance 8 true with
        portWork := u.portWork ++ [u.issueNo + 1], collWait := u.collWait ++ [sd] } with
      fabric := { s.fabric with waiting := s.fabric.waiting ++
        [⟨p, sd, a, if te then some t else none, u.issueNo + 1, u.pc.setWidth 48, word⟩] } }) ∧
    (j.joined = true → s.fabric.waiting = [] → s.fabric.early = [] →
      (∀ cause, s.recordCause j r = some cause → ∃ v, exec c s = .next v ∧ (v.tile p).state = .faulted ∧
        (v.tile p).fault = (if u.fault.valid = true then u.fault else ⟨true, false, cause, u.pc.setWidth 48, word⟩) ∧
        3 ≤ v.launch.pendingEnd.toNat) ∧
      (s.recordCause j r = none → Rec.kind r < 6 → ∀ h : Rec.group r < 16, ∃ v, exec c s = .next v ∧
        (v.fabric.groupCtr[Rec.group r]) = s.fabric.groupCtr[Rec.group r] + 1 ∧
        (sd ≠ 0 → ((v.tile p).reg sd).toNat = (2 ^ 32 * Rec.group r + s.fabric.groupCtr[Rec.group r]) % 2 ^ 64)) ∧
      (s.recordCause j r = none → Rec.kind r = 6 ∨ Rec.kind r = 7 → ∃ v, exec c s = .next v ∧
        (sd ≠ 0 → ((v.tile p).reg sd).toNat = (2 ^ 32 * (0x80 + Rec.peer r) +
          if Rec.kind r = 7 then s.pairCount true (Rec.peer r) j.ownRank else s.pairCount false j.ownRank (Rec.peer r)) % 2 ^ 64)))) ∧
  (∀ (s : State) (p : TileId) (ws : BitVec 3) (sa sb : BitVec 5), s.Inv →
    let u := s.tile p
    let b0 := (u.reg sb).toNat % 2 ^ 32
    let nb := (u.reg sb).toNat / 2 ^ 32
    (s.issues (opFsendArm p ws sa sb 0 s) → ∃ c, s.openStream (u.reg sa) = some c ∧ exec (.fsendArm p ws sa sb 0) s =
      .next (s.setTile p ((u.advance 8 true).setWslot ws (.fabric
        ⟨BitVec.ofNat 8 c.group, BitVec.ofNat 32 c.number, Rec.etype c.record, b0, b0 + nb⟩)))) ∧
    (s.issues (opFsendSkip p 0 sa sb 0 s) → ∃ c, s.openStream (u.reg sa) = some c ∧
      ((∀ b ∈ c.offered.map (·.1) ++ (List.range nb).map (b0 + ·), c.members.getD ((s.collShards c).owner b) 0 ≠ c.own) →
        ∃ v, exec (.fsendSkip p 0 sa sb 0) s = .next v ∧ v.mem = s.mem ∧
          ∀ d ∈ v.fabric.colls, c.same d = true → d.accounted = c.accounted ++ (List.range nb).map (b0 + ·))))

/-- Frames of a collective: a DATA frame of a byte message lands at its offset in its source's part and nowhere else; GRANT raises the
bound of its source, SKIP accounts for its blocks, END closes its source; a later copy is discarded, a frame whose sender differs in kind
or size is cause 0x7B, one before its collective waits, and frames of no launch, another tag or another rank are discarded (R333 to R335,
R339, R340, R344, R345, R348). What a sender may differ in is log 110, the frame kept before its collective log 72, the SKIP count in the
payload and the 2,046 bytes of a full byte-message frame log 69. -/
def Obligations.CollectiveFramesReachTheirCollective : Prop :=
  ∀ (s : State) (data : Frame) (o : Origin) (group : BitVec 8) (coll : BitVec 32) (u v : BitVec 64) (k : Job) (j : Join) (c : Coll)
    (cmd : Instr) (f : Frame), s.Inv → s.powered = true → data.kind = 1 → data.via = false →
    (cmd, f) ∈ ([(.transportData data, data), (.grant o group coll u, grantOf o group coll u),
      (.skipMessage o group coll u v, skipOf o group coll u v), (.end_ o group coll, endOf o group coll)] : List (Instr × Frame)) →
    let discarded : State := { s with fabric := { s.fabric with discard := satAdd32 s.fabric.discard 1 } }
    let src := f.src.toNat
    let id := (src, f.fidx.toNat)
    (s.job = none → exec cmd s = .next discarded) ∧
    (s.job = some k → s.fabric.job = some j →
      (f.tag ≠ k.jobtag ∨ j.members.length ≤ src ∨ f.dst.toNat ≠ j.ownRank → exec cmd s = .next discarded) ∧
      (f.tag = k.jobtag → src < j.members.length → f.dst.toNat = j.ownRank →
        (s.collOf f = none → s.collIssued j f = false → exec cmd s =
          .next { s with fabric := { s.fabric with early := s.fabric.early ++ [f] } }) ∧
        (s.collOf f = none → s.collIssued j f = true → exec cmd s = .next discarded) ∧
        (s.collOf f = some c →
          (src ∉ c.members ∨ c.differs f = true → exec cmd s = .next (s.collFault c 0x7B)) ∧
          (src ∈ c.members → c.differs f = false → id ∈ c.seen → exec cmd s = .next (s.settleColl c)) ∧
          (src ∈ c.members → c.differs f = false → id ∉ c.seen →
            let c1 : Coll := { c with seen := c.seen ++ [id] }
            let b := f.arg.toNat
            let nb := leNat (f.payload.take 8)
            (f.kind = 1 → c.kind ∈ [1, 2, 3, 5, 7] → f.nblk = 0 → (c.kind = 3 → src = Rec.peer c.record) →
              b + f.payload.length ≤ Rec.len c.record →
              f.payload.length ≤ 2046 → f.payload.length = 2046 ∨ c.kind = 2 ∨ b + f.payload.length = Rec.len c.record →
              let base := Rec.dst c.record + (if c.kind ≤ 2 then c.pos src * Rec.len c.record else 0) + b
              ∃ t, exec cmd s = .next t ∧ (∀ i x, f.payload[i]? = some x → t.peek (base + i) = x) ∧
                s.sameMemBut t ((List.range f.payload.length).map (base + ·))) ∧
            (f.kind = 2 → c.kind = 0 → c.offered = [] → exec cmd s = .next (s.settleColl { c1 with
              grants := setCount c.grants src (max (countOf c.grants src) b) })) ∧
            (f.kind = 3 → c.kind = 0 →
              (∀ i, i < nb → b + i ∈ s.ownBlocks c ∧ b + i ∉ c.reduced ∧ ∀ y ∈ c.contrib, ¬ (y.block = b + i ∧ y.src = src)) →
              exec cmd s = .next (s.settleColl { c1 with
                contrib := c.contrib ++ (List.range nb).map fun i => ⟨b + i, src, 0, none⟩ })) ∧
            (f.kind = 4 → c.kind = 4 → (∃ m ∈ c.members, m ≠ src ∧ m ≠ c.own ∧ ∀ y ∈ c.ends, y.1 ≠ m) →
              exec cmd s = .next (s.settleColl { c1 with ends := c.ends ++ [id] }))))))

/-- A block that every member has given or skipped is reduced by the wide sum into its place; a row that every member has passed likewise,
after every lower row; nothing else of memory changes where no own block or row waits to be staged (R341, R345). -/
def Obligations.ReductionsStoreTheWideSum : Prop :=
  ∀ (s : State) (group : BitVec 8) (coll : BitVec 32) (k : Nat) (c : Coll), s.Inv → s.poisoned = [] →
    (s.fabric.colls.find? (fun c => c.kind == 0 && c.group == group.toNat && c.number == coll.toNat) = some c →
      let mine := c.contrib.filter fun x => x.block == k
      let sh := s.collShards c
      let a := Rec.dst c.record + 4 * (k * sh.bs - 512 * sh.firstUnit (c.pos c.own))
      let sum := reduceBlock (s.collType c) sh.bs (mine.map (·.given))
      k ∉ c.reduced → k ∈ s.ownBlocks c → mine.length = c.n → Rec.upd c.record = false → (∃ x ∈ mine, x.given ≠ none) →
      (∀ o ∈ c.offered, c.members.getD (sh.owner o.1) 0 ≠ c.own) →
      ∃ t, exec (.blockReduce group coll k) s = .next t ∧ s.sameMemBut t ((List.range (4 * sh.bs)).map (a + ·)) ∧
        ∀ i v, sum[i]? = some v → t.rdNat (a + 4 * i) 4 = (b32Bits v.1).toNat) ∧
    (s.fabric.colls.find? (fun c => c.kind == 4 && c.group == group.toNat && c.number == coll.toNat) = some c →
      let mine := c.rowsIn.filter fun x => x.row == k
      let n := Rec.rowLen c.record
      let a := Rec.aux2 c.record + 4 * Rec.rowp c.record * c.rowsOut.length
      let part (i : Nat) : List Contribution := mine.map fun x => ⟨.plain (.flt Fmt.b32) 32, 0, (x.codes.drop (32 * i)).take 32, false⟩
      mine ≠ [] → (∀ x ∈ c.rowsIn, k ≤ x.row) → (∀ m ∈ c.members, CollRun.passed c k m = true) →
      (∃ m ∈ c.members, m ≠ c.own ∧ ∀ y ∈ c.ends, y.1 ≠ m) → (∀ z ∈ c.rowsLeft, (c.rowRank z.1).getD 0 ≠ c.own) →
      ∃ t, exec (.rowReduce group coll k) s = .next t ∧ s.sameMemBut t ((List.range (4 * n)).map (a + ·)) ∧
        ∀ i, i < n → ∃ v, (wideSum (part (i / 32)) (min 32 (n - 32 * (i / 32))))[i % 32]? = some v ∧
          t.rdNat (a + 4 * i) 4 = (b32Bits v.1).toNat)

/-! ### Steps, amber sets, health (chapter 13) -/

/-- Arrival waits for its tally and its engines and then sends one message; the gate opens with the last message, vetoed by any non-finite
flag; a message of another step is cause 0x8D, COMMITMS after arrival cause 0x8C; the commit counts K and A, and t where the attempt was
not vetoed, and adds COMMIT_T once at every tile of the set (R362 to R368, R387). The gate of a digest commit is never vetoed (log 75). -/
def Obligations.StepsCommitThroughTheirGate : Prop :=
  ∀ (s : State) (c : Image) (m : CommitMsg), s.Inv → s.poisoned = [] → s.stepCfg = some c → s.launchActive = true → s.stepping = true →
    s.powered = true →
    let x := s.steps
    let asked : W32 := StepCfg.arriveN c * (x.k + 1)
    let freed : W32 := StepCfg.releaseN c * (x.k + 1)
    let put : State := { s with steps := { x with msgs := x.msgs.filter (fun y => y.src != m.src || y.k != m.k) ++ [m] } }
    (x.phase = .stepping → s.joinedUp = true → reached (s.hostTally (StepCfg.arriveT c)) asked = true →
      (∀ u ∈ x.units, u.attempt = x.a → u.checked = true) → (∃ r ∈ s.otherRanks, ∀ y ∈ x.msgs, y.src.toNat = r → y.k ≠ x.k) →
      ∃ t, exec .arrival s = .next t ∧ t.mem = s.mem ∧ t.tiles = s.tiles ∧ t.steps.phase = .arrived ∧
        t.steps.nf = x.nf ∧ t.steps.k = x.k ∧
        ∃ y ∈ t.steps.msgs, y.src.toNat = s.ownRank % 256 ∧ y.k = x.k ∧ y.t = x.t ∧ y.a = x.a ∧ y.nf = t.steps.nf) ∧
    (x.phase ≠ .stepping ∨ reached (s.hostTally (StepCfg.arriveT c)) asked = false ∨
      (∃ u ∈ x.units, u.attempt = x.a ∧ u.checked = false) → exec .arrival s = .next s) ∧
    (m.src.toNat ∈ s.otherRanks → m.k = x.k → x.phase ≠ .restoring →
      (m.t = x.t → m.a = x.a → ∃ t, exec (.commitMessage m) s = .next t ∧ m ∈ t.steps.msgs ∧ t.steps.k = x.k ∧
        (put.commitMsgs.length < s.jobSize → t = put) ∧
        (x.phase = .arrived → s.jobSize ≤ put.commitMsgs.length →
          t.steps.phase = if x.digest = false ∧ ∃ y ∈ put.commitMsgs, y.nf = true then .gateVetoed else .gateClear)) ∧
      (m.t ≠ x.t ∨ m.a ≠ x.a → ∃ t, exec (.commitMessage m) s = .next t ∧ 4 ≤ t.launch.pendingEnd.toNat ∧
        (s.launch.faultValid = false → t.launch.faultCause = 0x8D ∧ t.launch.faultTile = 0x7FF))) ∧
    (x.phase = .arrived → ∃ t, exec .commitTimeout s = .next t ∧ 4 ≤ t.launch.pendingEnd.toNat ∧
      (s.launch.faultValid = false → t.launch.faultCause = 0x8C ∧ t.launch.faultTile = 0x7FF)) ∧
    (x.phase ≠ .arrived → exec .commitTimeout s = .next s) ∧
    (x.phase = .gateClear ∨ x.phase = .gateVetoed → reached (s.hostTally (StepCfg.releaseT c)) freed = true →
      (x.digest = true ∨ ∀ u ∈ x.units, u.attempt ≠ x.a) →
      ∃ t, exec .stepCommit s = .next t ∧ t.steps.phase = .stepping ∧ t.steps.k = x.k + 1 ∧
        (x.digest = true → t.steps.t = x.t ∧ t.steps.a = x.a) ∧
        (x.digest = false → t.steps.a = x.a + 1 ∧ t.steps.t = (if x.phase = .gateVetoed then x.t else x.t + 1) ∧
          t.steps.nf = x.nfNext) ∧
        ∀ p ∈ s.jobTiles, (t.tile p).tally (StepCfg.commitT c) = (s.tile p).tally (StepCfg.commitT c) + 1) ∧
    (x.phase ≠ .gateClear → x.phase ≠ .gateVetoed → exec .stepCommit s = .next s)

/-- A holder keeps a stripe whose CRC-64 checks and stores none that fails; an acknowledgement counts once, a second CRC failure or a lack
of room fails the securing; a SEAL seals its copies once every assigned stripe is held; a restore takes the inventories, starts at the
step of the chosen image, or fails with cause 0x8B (R379 to R381, R383 to R386). A restore writes the regions of its image where this
launch has them, and of the rest of memory only the step record and the working copies. The room of a holder is log 77, the SEAL's number
of stripes log 76. -/
def Obligations.AmberSetsSealAndRestore : Prop :=
  ∀ (s : State) (c : Image) (m : StripeMsg) (holder owner : BitVec 8) (seq nstripe : BitVec 32) (i : Nat) (n : InvMsg) (image : List Byte),
    s.Inv →
    s.stepCfg = some c → s.launchActive = true → s.powered = true → s.poisoned = [] →
    let rank := s.planRankOf m.owner.toNat
    let x := s.slotAt seq
    (s.power.shutdown = false → StepCfg.amberOn c = true → m.owner.toNat ∈ s.otherRanks →
      s.ownRank ∈ holders s.jobSize m.owner.toNat m.index →
      (crc64 m.bytes = m.crc → (s.steps.held.filter fun h => h.seq.toNat % 2 == m.seq.toNat % 2).length <
          (StepCfg.amberLen c - 2 ^ 20) / 2 / stripeBytes →
        ∃ t, exec (.stripe m) s = .next t ∧ t.tiles = s.tiles ∧
          ∃ h ∈ t.steps.held, h.rank = rank ∧ h.seq = m.seq ∧ h.index = m.index ∧ h.bytes = m.bytes) ∧
      (crc64 m.bytes ≠ m.crc → ∃ t, exec (.stripe m) s = .next t ∧ t.mem = s.mem ∧ t.tiles = s.tiles ∧
        ∀ h ∈ t.steps.held, h ∈ s.steps.held)) ∧
    (x.seq = seq → x.state = 1 → (holder, i) ∈ x.copies s.jobSize s.ownRank →
      (∃ t, exec (.stripeAck holder seq i .stored) s = .next t ∧ (holder, i) ∈ (t.slotAt seq).acks) ∧
      ((holder, i) ∉ x.refused → ∃ t, exec (.stripeAck holder seq i .crcBad) s = .next t ∧ (holder, i) ∈ (t.slotAt seq).refused ∧
        (t.slotAt seq).state = 1 ∧ t.mem = s.mem) ∧
      (∀ v, v = .noRoom ∨ v = .crcBad ∧ (holder, i) ∈ x.refused → ∃ t, exec (.stripeAck holder seq i v) s = .next t ∧
        (t.slotAt seq).state = 3 ∧ t.health.event.getLsbD 4 = true ∧ t.mem = s.mem)) ∧
    (owner.toNat ∈ s.otherRanks → ∃ t, exec (.seal owner ⟨seq, nstripe⟩) s = .next t ∧
      (s.planRankOf owner.toNat, seq, nstripe.toNat) ∈ t.steps.seals ∧
      t.steps.held.length = s.steps.held.length ∧
      let whole : Prop := ∀ k ∈ s.assigned owner.toNat nstripe.toNat, ∃ h ∈ s.steps.held,
        h.rank = s.planRankOf owner.toNat ∧ h.seq = seq ∧ h.index = k
      (whole → ∀ h ∈ t.steps.held, h.rank = s.planRankOf owner.toNat → h.seq = seq → h.isSealed = true) ∧
      (¬ whole → t.steps.held = s.steps.held)) ∧
    (s.stepping = true → s.steps.phase = .restoring →
      (n.src.toNat ∈ s.otherRanks → ∃ t, exec (.inv n) s = .next t ∧ n ∈ t.steps.invs ∧
        ((∃ r < s.jobSize, r ≠ n.src.toNat ∧ ∀ y ∈ s.steps.invs, y.src.toNat ≠ r) → t = { s with steps := { s.steps with
          invs := s.steps.invs.filter (fun y => y.src != n.src) ++ [n] } })) ∧
      (s.joinedUp = true → StepCfg.store c = false → s.steps.chosen = some (AmberImg.seq image) → s.spareRanks image = [] →
        let regions := s.amberRegions c
        let fits := AmberImg.ndir image = regions.length ∧ ∀ k r, regions[k]? = some r → AmberImg.regionLen image k = r.2
        (¬ fits → ∃ t, exec (.restoreFetchDone image []) s = .next t ∧ t.steps.restoreCause = 3 ∧ 4 ≤ t.launch.pendingEnd.toNat ∧
          (s.launch.faultValid = false → t.launch.faultCause = 0x8B)) ∧
        (fits → ((s.writeRegions c image).wrBytes (StepCfg.rspare c) []).tablesOk = true →
          ∃ t, exec (.restoreFetchDone image []) s = .next t ∧ t.steps.phase = .stepping ∧ t.steps.t = AmberImg.t image ∧
            t.steps.a = 0 ∧ t.steps.k = 0 ∧ t.steps.digest = true ∧ t.steps.restoreSeq = AmberImg.seq image ∧
            t.health.event.getLsbD 5 = true ∧
            let kept (b : Nat) : Prop := (b < StepCfg.stepRec c ∨ StepCfg.stepRec c + 64 ≤ b) ∧
              ∀ g < Upd.ngrp s.updImage, ∀ k < Upd.nblk s.updImage g, ∀ ty, s.etype (Upd.wtype s.updImage g) = some ty →
                b ∉ woutTouched s.updImage g k ty
            ((∀ m ∈ s.steps.msgs, m.k = 0 ∧ m.t = AmberImg.t image ∧ m.a = 0) → disjoint regions = true →
              ∀ k r, regions[k]? = some r → ∀ j z, (AmberImg.region image k)[j]? = some z → kept (r.1 + j) →
              t.peek (r.1 + j) = z) ∧
            ((∀ m ∈ s.steps.msgs, m.k = 0 ∧ m.t = AmberImg.t image ∧ m.a = 0) →
              ∀ b, kept b → (∀ r ∈ regions, b < r.1 ∨ r.1 + r.2 ≤ b) → t.peek b = s.peek b))))

/-- In a running module an evaluation moves the health state by its risk, and with RUN = 0 only samples the inputs, no state moves, and
SECURE_NOW is kept for the next COMMIT (log 76); SECURE_NOW, HMN_CTL and HMN_EVENT (R372 to R375). -/
def Obligations.HealthStateFollowsTheRisk : Prop :=
  ∀ (s : State) (v : W32), s.Inv → s.powered = true →
    let h := s.health
    (h.run = false → ∃ t, exec .healthEval s = .next t ∧ t = { s with health := t.health } ∧ t.health.state = h.state ∧
      t.health.risk = h.risk ∧ t.health.event = h.event ∧
      ∀ i : Fin 12, ((t.health.inputs[i]).toNat) = min 0xFFFF (s.healthInputs.getD i.1 0)) ∧
    (h.run = true → ∃ t, exec .healthEval s = .next t ∧ t = { s with health := t.health } ∧
      let r := t.health.risk.toNat
      (h.state = 0 → t.health.state = if h.watchOn ≤ r then 1 else 0) ∧
      (h.state = 1 → t.health.state =
        if h.secureOn ≤ r ∧ h.secureN ≤ h.above + 1 then 2 else if r < h.watchOff then 0 else 1) ∧
      (h.state = 2 → t.health.state = 2) ∧
      (h.state = 3 → t.health.state = if s.isSecuring = true then 3 else 4) ∧
      (h.state = 4 → t.health.state = if 1 < h.cooldown then 4 else if h.watchOn ≤ r then 1 else 0)) ∧
    (h.run = false → exec .secureNow s = .next { s with health := { h with asked := true } }) ∧
    (h.run = true → h.state = 0 ∨ h.state = 1 ∨ h.state = 4 → ∃ t, exec .secureNow s = .next t ∧ t = { s with health := t.health } ∧
      t.health.state = 2 ∧ t.health.event.getLsbD 0 = true) ∧
    (h.run = true → h.state = 2 ∨ h.state = 3 → exec .secureNow s = .next s) ∧
    (v.getLsbD 1 = false →
      (h.tableOk = true ∨ h.run = true ∨ v.getLsbD 0 = false → exec (.hmnRun v) s =
        .next { s with health := { h with run := v.getLsbD 0 } }) ∧
      (h.tableOk = false → h.run = false → v.getLsbD 0 = true → exec (.hmnRun v) s =
        .next { s with health := { h with event := h.event ||| 0x80 } })) ∧
    exec (.hmnEventClear v) s = .next { s with health := { h with event := h.event &&& ~~~ v.setWidth 8 } }

/-! ### Launch, the host block's registers (chapters 05, 13) -/

/-- START begins the checks, and while RUN = 1 is only flagged; the lowest failing check refuses the launch with its code; with none it is
accepted, and every tile of its set issues from ENTRY; CANCEL ends or drains; once every tile rests the highest ending is written and RUN
reads 0 (R143 to R148, R171). -/
def Obligations.LaunchesStartAndEnd : Prop :=
  ∀ (s : State) (b : Bool), s.Inv → s.poisoned = [] → s.powered = true →
    let l := s.launch
    let x := s.paramBlock
    let step := s.rdBytes (Lpb.step x) 360
    let set := (s.l2p.drop l.first.toNat).take l.count.toNat
    (l.run = false → exec (.start b) s = .next { s with launch := { l with run := true, st := 1 } } ∧
      exec (.cancel false) s = .next s ∧ exec (.cancel true) s = exec (.start false) s) ∧
    (l.run = true → exec (.start false) s = .next { s with launch := { l with writeWhileRun := true } } ∧
      exec (.start true) s = exec (.cancel false) { s with launch := { l with writeWhileRun := true } } ∧
      exec (.cancel true) s = exec (.start true) s ∧
      (l.st = 1 → ∃ t, exec (.cancel false) s = .next t ∧ t.launch = { l with
        cancelSeen := true, run := false, st := 0, endCode := 2, endIrq := true } ∧ t.tiles = s.tiles ∧ t.mem = s.mem) ∧
      (2 ≤ l.st.toNat → ∃ t, exec (.cancel false) s = .next t ∧ t.launch.cancelSeen = true ∧ t.launch.st = 3 ∧
        2 ≤ t.launch.pendingEnd.toNat ∧ ∀ p ∈ s.jobTiles, (t.tile p).state ∉ [.issuing, .inWaitt, .atMark])) ∧
    (l.run = true → l.st = 1 →
      (∀ c, s.launchChecks.find? (fun c => !c.ok) = some c → ∃ t, exec .launchChecks s = .next t ∧ t.launch = { l with
        refuse := c.code, endCode := 5, endIrq := true, run := false, st := 0 } ∧ t.tiles = s.tiles ∧ t.mem = s.mem ∧
        t.job = s.job) ∧
      ((∀ c ∈ s.launchChecks, c.ok = true) → ∃ t j, exec .launchChecks s = .next t ∧
        t.job = some j ∧ j.first = l.first.toNat ∧ j.count = l.count.toNat ∧ j.jobtag = Lpb.jobtag x ∧
        t.launch.run = true ∧ t.launch.refuse = 0 ∧ t.launch.endCode = 0 ∧ t.launch.seq = l.seq + 1 ∧
        t.hostTally l.doneTally = 0 ∧
        (Lpb.plan x = 0 → Lpb.step x = 0 ∨ StepCfg.restore step = false → t.launch.st = 2 ∧ t.fabric.job = s.fabric.job ∧
          ∀ p, t.tile p = if p ∈ set then (s.tile p).atLaunch l.entry (State.gkeyOf j) else s.tile p) ∧
        (Lpb.step x = 0 → j.step = none ∧ t.steps.phase = .idle ∧ t.steps.t = 1) ∧
        (Lpb.step x ≠ 0 → j.step = some step ∧ t.steps.t = BitVec.ofNat 32 (StepCfg.step0 step) ∧ t.steps.a = 0 ∧ t.steps.k = 0 ∧
          t.steps.phase = (if StepCfg.restore step = true then .restoring else .stepping) ∧
          t.steps.digest = StepCfg.restore step ∧ t.steps.nf = false ∧
          ∀ k ∈ [StepCfg.arriveT step, StepCfg.releaseT step, StepCfg.vetoT step], t.hostTally k = 0) ∧
        (Lpb.plan x ≠ 0 → ∃ p b k, s.selectPlan (Lpb.plan x) = some (p, b) ∧ t.fabric.job = some k ∧ k.plan = p ∧ k.copy1 = b ∧
          k.rank = (State.recordOf p (Plan.nmemb p) ownFpr).getD 0 ∧ k.present = s.presentMask p 0 (Plan.nmemb p) ∧
          k.relays = s.presentMask p (Plan.nmemb p) (Plan.nmod p) ∧ t.fabric.groupCtr = Vector.replicate 16 0 ∧
          t.fabric.colls = [] ∧ t.fabric.heldJoins = [] ∧ t.fabric.heldConfirms = [] ∧
          ((∀ m ∈ s.fabric.heldJoins, m.jobtag ≠ Lpb.jobtag x) → (∀ m ∈ s.fabric.heldConfirms, m.jobtag ≠ Lpb.jobtag x) →
            (∃ r ∈ maskRanks k.present, r ≠ k.rank) → t.launch.st = 2 ∧ k.j = none ∧ k.joined = false)))) ∧
    (s.launchActive = true →
      ((∃ p ∈ s.jobTiles, s.atRest p = false) → exec .launchIdle s = .next s) ∧
      ((∀ p ∈ s.jobTiles, s.atRest p = true) →
        (l.st = 2 → l.completed = false → exec .launchIdle s = .next s) ∧
        (l.st = 2 → l.completed = true → (∀ p ∈ s.jobTiles, (s.tile p).state = .halted) →
          ∃ t, exec .launchIdle s = .next t ∧ t.job = none ∧ t.fabric.job = none ∧ t.mem = s.mem ∧ t.launch = { l with
            run := false, st := 0, endCode := 1, endIrq := true, pendingEnd := 0, completed := false }) ∧
        (l.st = 3 → l.pendingEnd ≠ 0 → ∃ t, exec .launchIdle s = .next t ∧ t.job = none ∧ t.fabric.job = none ∧
          t.launch.run = false ∧ t.launch.st = 0 ∧ t.launch.endCode = l.pendingEnd ∧ t.launch.endIrq = true)))

/-! ### Power and temperature (chapter 15) -/

/-- What the supply does: the rails start, module reset and PG leave every register at its reset value, power goes and comes; a fault
opens the switch and stays latched; warnings set their bits (R13, R415 to R421). That memory lists nothing after module reset, PG or a
fault is log 91, the release of a latched fault log 84, the bit numbers of STATUS_INPUT log 85. -/
def Obligations.PowerStatesFollowTheSupply : Prop :=
  ∀ (s : State) (b : BringUp) (vin iin : BitVec 16) (ms : Nat) (slot : BitVec 6), s.Inv →
    let x := s.standby
    let lost (t : State) : Prop := t.tiles = [] ∧ t.mem = [] ∧ t.launch = .reset ∧ t.fabric = .reset ∧ t.mesh = .reset ∧
      t.power = .reset ∧ t.health = .reset ∧ t.steps = .reset ∧ t.rtu = .reset ∧ t.boot = .reset ∧ t.irq = .reset ∧
      t.eth = s.eth.map State.unplugged ∧ t.ports = State.reset.ports ∧ t.nv = s.nv ∧ t.part = s.part
    (x.pwrEn = false → x.supply = true → x.operation = 0x80 → x.pg = false → x.faultLatched = false ∨ 100 ≤ ms →
      4500 ≤ vin.toNat → vin.toNat ≤ 5500 → exec (.pwrEnAssert vin ms) s = .next { s with standby := { x with
        vin := vin, pwrEn := true, faultLatched := false, sequencing := true } }) ∧
    (x.sequencing = true → x.inReset = true → ∃ t, exec (.pgAssert b) s = .next t ∧ lost t ∧ t.standby = { x with
      sequencing := false, pg := true, slotId := b.slotId }) ∧
    (x.sequencing = true → x.inReset = false → ∃ t, exec (.pgAssert b) s = .next t ∧ t.standby.pg = true ∧ t.tiles = [] ∧
      t.mem = [] ∧ t.launch = .reset ∧ t.mesh.starting = some b ∧ t.meshOpen = false) ∧
    (∃ t, exec .pwrEnDeassert s = .next t ∧ lost t ∧ t.standby = { x with pg := false, sequencing := false, pwrEn := false }) ∧
    (x.pg = true → ∃ t, exec .moduleReset s = .next t ∧ lost t ∧ t.standby = { x with inReset := true } ∧
      t.poisoned = [] ∧ ∀ q c,
        ((∀ e ∈ s.nv.seeds, e.1 ≠ pairKey q c) → t.pair q c = .reset) ∧
        ∀ e ∈ s.nv.seeds, e.1 = pairKey q c → (s.nv.seeds.map (·.1)).Nodup →
          t.pair q c = { Pair.reset with 
            tx := { Pair.reset.tx with seed := e.2.1 }, rx := { Pair.reset.rx with seed := e.2.2 } }) ∧
    (x.inReset = true → x.pg = true → ∃ t, exec (.resetRelease b) s = .next t ∧ t.standby = { x with inReset := false } ∧
      t.mesh.starting = some b ∧ t.tiles = [] ∧ t.mem = [] ∧ t.launch = .reset) ∧
    (x.pg = true → ∃ t, exec .railOutOfRegulation s = .next t ∧ lost t ∧ t.standby = { x with
      pg := false, sequencing := false, faultLatched := true }) ∧
    (∃ t, exec .supplyLoss s = .next t ∧ lost t ∧ t.standby.supply = false ∧ t.standby.pg = false ∧
      t.standby.faultLatched = false ∧ t.standby.pwrEn = x.pwrEn) ∧
    (x.supply = false → exec (.standbySupply slot) s =
      .next { s with standby := { x with supply := true, slotId := slot, vin := 3600 } }) ∧
    (x.supply = true →
      (vin.toNat < 4300 → ∃ t, exec (.undervoltageFault vin) s = .next t ∧ lost t ∧ t.standby.pg = false ∧
        t.standby.faultLatched = true ∧ t.standby.statusInput = x.statusInput ||| 0x10) ∧
      (5800 < vin.toNat → ∃ t, exec (.overvoltageFault vin) s = .next t ∧ lost t ∧ t.standby.pg = false ∧
        t.standby.faultLatched = true ∧ t.standby.statusInput = x.statusInput ||| 0x80) ∧
      (3300 < iin.toNat → ∃ t, exec (.overcurrentFault iin) s = .next t ∧ lost t ∧ t.standby.pg = false ∧
        t.standby.faultLatched = true ∧ t.standby.statusInput = x.statusInput ||| 4) ∧
      (4500 < iin.toNat → ∃ t, exec (.shortCircuitFault iin) s = .next t ∧ lost t ∧ t.standby.pg = false ∧
        t.standby.faultLatched = true ∧ t.standby.statusInput = x.statusInput ||| 4) ∧
      (belowLimit vin.toNat 100 x.uvLimit = true → ∃ t, exec (.vinLow vin) s = .next t ∧ t.standby.statusInput = x.statusInput ||| 0x20 ∧
        t.mem = s.mem ∧ t.tiles = s.tiles ∧ t.standby.vin = vin ∧
        (s.powered = true → t.power.vin = vin ∧ t.power.event.getLsbD 0 = true)) ∧
      (aboveLimit vin.toNat 100 x.ovLimit = true → ∃ t, exec (.vinHigh vin) s = .next t ∧ t.standby.statusInput = x.statusInput ||| 0x40 ∧
        t.mem = s.mem ∧ t.tiles = s.tiles ∧ t.standby.vin = vin ∧
        (s.powered = true → t.power.vin = vin ∧ t.power.event.getLsbD 1 = true)) ∧
      (aboveLimit iin.toNat 10 x.ocLimit = true → ∃ t, exec (.iinWarn iin) s = .next t ∧ t.standby.statusInput = x.statusInput ||| 2 ∧
        t.mem = s.mem ∧ t.tiles = s.tiles ∧ t.power.iin = iin ∧ (s.powered = true → t.power.event.getLsbD 2 = true)))

/-- The limiter falls at once above P_cap, rises one step after 100 samples and keeps 1 to 16; a tile samples its temperature and trips at
the third sample of 105 °C in a row, one that issues while hotter at the next; stretch events, clock faults, the module's shutdown, DIMM
sensors and the PWR registers (R425 to R431). The trip of a tile that was hot before it issued is log 89. -/
def Obligations.LimiterAndTemperatureRule : Prop :=
  ∀ (s : State) (m : PowerSample) (p : TileId) (tj : BitVec 16) (d : Nat) (o : Bool) (i : PortId) (v : W32), s.Inv →
    let w := s.power
    let cap := powerCap s.part m.vin.toNat w.cap.toNat m.mainInlet.toInt m.mainFlow.toNat
    let den := 8 * minFlow s.part
    let x := (s.tile p).therm
    (s.powered = true → 1 ≤ w.lMod.toNat → w.lMod.toNat ≤ 16 →
      ∃ t, exec (.limiterUpdate m) s = .next t ∧ t.mem = s.mem ∧ t.tiles = s.tiles ∧ t.launch = s.launch ∧
        t.power.pin = m.pin ∧ t.power.vin = m.vin ∧ t.standby.vin = m.vin ∧ 1 ≤ t.power.lMod.toNat ∧ t.power.lMod.toNat ≤ 16 ∧
        (cap.1 < m.pin.toNat * den → 1 < w.lMod.toNat → t.power.lMod < w.lMod) ∧
        (m.pin.toNat * den ≤ cap.1 → w.lMod ≤ t.power.lMod ∧ t.power.lMod.toNat ≤ w.lMod.toNat + 1) ∧
        (m.pin.toNat * den ≤ cap.1 → w.lMod < t.power.lMod → 99 ≤ w.below) ∧
        (t.power.limitBy.toNat = cap.2)) ∧
    (s.powered = true → ∃ t, exec (.thermalSample p tj) s = .next t ∧ (t.tile p).therm = x.sample tj ∧
      (tj.toInt < 420 → t = s.setTile p { s.tile p with therm := x.sample tj }) ∧
      (420 ≤ tj.toInt → x.hot = 2 → t.power.trip = true ∧ t.power.event.getLsbD 6 = true ∧ (t.tile p).therm.trip = true ∧
        (s.launchActive = true → p ∈ s.l2p → (t.tile p).state = .faulted ∧ 4 ≤ t.launch.pendingEnd.toNat ∧
          t.mesh.tileFault = true ∧ (s.launch.faultValid = false → t.launch.faultCause = 0x84 ∧
            t.launch.faultTile.toNat = p.1 ∧ t.launch.faultHardware = true))) ∧
      (420 ≤ tj.toInt → 3 ≤ x.hot → s.launchActive = true → s.inSet p = true → p ∈ s.l2p → (s.tile p).state = .issuing →
        (t.tile p).state = .faulted ∧ 4 ≤ t.launch.pendingEnd.toNat)) ∧
    (x.sample tj).hot = (if 420 ≤ tj.toInt then x.hot + 1 else 0) ∧
    (s.powered = true → 30 ≤ d → ∃ t, exec (.stretchEvent p d) s = .next t ∧ t.power.stretch = satAdd32 w.stretch 1 ∧
      t.tile p = { s.tile p with therm := { x with stretch := satAdd32 x.stretch 1 } } ∧ t.mem = s.mem) ∧
    (s.powered = true → s.launchActive = true → p ∈ s.l2p → ∃ t, exec (.clockFault p) s = .next t ∧ (t.tile p).state = .faulted ∧
      4 ≤ t.launch.pendingEnd.toNat ∧ (s.launch.faultValid = false → t.launch.faultCause = 0x85)) ∧
    (s.powered = true → ∃ t, exec (.moduleThermalShutdown o) s = .next t ∧ t.power.shutdown = true ∧
      t.power.optShutdown = (w.optShutdown || o) ∧
      t.power.event.getLsbD 7 = true ∧ t.standby.statusMfr.getLsbD 2 = true ∧ t.meshOpen = false ∧
      (s.launchActive = true → s.launch.faultValid = false → t.launch.faultCause = 0x84 ∧ t.launch.faultTile = 0x7FF) ∧
      (o = true → ∀ q c, (t.pair q c).state ≠ .up)) ∧
    (s.powered = true → exec (.dimmSensorRead i tj) s = .next { s with power := { w with dimmT := w.dimmT.set i tj } }) ∧
    exec (.pwrEventClear v) s = .next { s with power := { w with event := w.event &&& ~~~ v.setWidth 10 } } ∧
    (s.powered = true → 7000 ≤ v.toNat % 2 ^ 14 → v.toNat % 2 ^ 14 ≤ 15000 →
      exec (.pwrCapWrite v) s = .next { s with power := { w with cap := v.setWidth 14 } }) ∧
    (s.powered = true → v.toNat % 2 ^ 14 < 7000 ∨ 15000 < v.toNat % 2 ^ 14 →
      exec (.pwrCapWrite v) s = .next { s with power := { w with event := w.event ||| 0x100 } })

/-! ### PMBus (chapter 15) -/

/-- Every read command answers its value (a reading whose sensor is not read in standby or in reset is a free value there, log 87), every
accepted write takes effect and is acknowledged, everything else is not acknowledged and sets CML; below 36 V nothing is (R434, R435,
R442). The codes that SMBALERT_MASK takes and the bits that CLEAR_FAULTS keeps are log 85, OPERATION starting the rails again log 84, the
memory that it loses log 91, the warnings that still hold while unpowered log 86. -/
def Obligations.PmbusCommandsAnswer : Prop :=
  ∀ (s : State) (b : Byte) (code : BitVec 8) (w : BitVec 16) (a : BitVec 7) (isWrite : Bool), s.Inv →
    let x := s.standby
    let y := s.power
    let word (v : BitVec 16) : List Byte := leBytes v.toNat 2
    let reads : List (Instr × List Byte) := [(.operation none, [x.operation]), (.capability, [0xD0]),
      (.vinOvWarnLimit none, word x.ovLimit), (.vinUvWarnLimit none, word x.uvLimit), (.iinOcWarnLimit none, word x.ocLimit),
      (.statusByte, [s.statusWord.setWidth 8]), (.statusWord, word s.statusWord), (.statusInput, [x.statusInput]),
      (.statusTemperature, [x.statusTemp]), (.statusMfrSpecific, [x.statusMfr]),
      (.readVin, word (linear11 x.vin.toNat 100)),
      (.pmbusRevision, [0x44]), (.mfrId, [6, 0x4E, 0x47, 0x55, 0x4D, 0x55, 0x53]),
      (.mfrModel, [9, 0x4F, 0x58, 0x56, 0x2D, 0x50, 0x31, 0x31, 0x35, 0x32]), (.mfrRevision, [2, 0x42, 0x31]),
      (.mfrPowerCap none, leBytes y.cap.toNat 2)]
    let readings : List (Instr × Int × Nat) := [(.readIin, y.iin.toNat, 10), (.readTemperature1, s.hottest.2.toInt, 4),
      (.readTemperature2, y.mainInlet.toInt, 8), (.readTemperature3, y.optInlet.toInt, 8), (.readPin, y.pin.toNat, 1),
      (.mfrReadFlowMain, y.mainFlow.toNat, 10), (.mfrReadFlowOpt, y.optFlow.toNat, 10)]
    let writes : List (Instr × Option State) := [
      (.vinOvWarnLimit (some w), if limitInRange w 450 580 then some { s with standby := { x with ovLimit := w } } else none),
      (.vinUvWarnLimit (some w), if limitInRange w 430 492 then some { s with standby := { x with uvLimit := w } } else none),
      (.iinOcWarnLimit (some w), if limitInRange w 1000 3000 then some { s with standby := { x with ocLimit := w } } else none),
      (.mfrPowerCap (some w), if 7000 ≤ w.toNat ∧ w.toNat ≤ 15000 then
        some (if s.powered = true then { s with power := { y with cap := w.setWidth 14 } } else s) else none),
      (.smbalertMask code (some b), if code ∈ ([0x78, 0x79, 0x7C, 0x7D, 0x80] : List Byte) then some { s with standby := { x with
        masks := (code, b) :: x.masks.filter fun z => z.1 != code } } else none),
      (.operation (some b), if b = 0x80 then some { s with standby := { x with
        operation := 0x80, sequencing := x.sequencing || (x.pwrEn && !x.faultLatched && !x.pg) } } else if b = 0 then
          some { s.cold with standby := { x with pg := false, sequencing := false, operation := 0 } } else none),
      (.pmbusUnsupported code isWrite, none)]
    (∀ c l, (c, l) ∈ reads →
      (x.supply = true → exec c s = .next { s with standby := { x with ack := true, reply := l } }) ∧
      (x.supply = false → exec c s = .next { s with standby := { x with ack := false, reply := [] } })) ∧
    (∀ c n d, (c, n, d) ∈ readings → x.supply = true →
      (s.powered = true → exec c s = .next { s with standby := { x with ack := true, reply := word (linear11 n d) } }) ∧
      (s.powered = false → exec c s = .next { s with freeCtr := s.freeCtr + 1, standby := { x with
        ack := true, reply := word ((Config.freeValue s.freeCtr).setWidth 16) } })) ∧
    (∀ c r, (c, r) ∈ writes → x.supply = true →
      (∀ t, r = some t → exec c s = .next { t with standby := { t.standby with ack := true, reply := [] } }) ∧
      (r = none → exec c s = .next { s with standby := { x with ack := false, reply := [], cml := true } })) ∧
    (x.supply = true → ∃ t, exec .clearFaults s = .next t ∧ t = { s with standby := t.standby } ∧ t.standby.cml = false ∧
      t.standby.ack = true ∧ t.standby.faultLatched = x.faultLatched ∧
      t.standby.statusInput = x.statusInput &&& (s.inputsHeld ||| if x.faultLatched then 0x94 else 0)) ∧
    (x.supply = true → exec (.setdasa a) s = .next { s with standby := { x with i3cAddr := some a } })

/-! ### The mesh, boot, flash and the security block (chapters 01 and 14) -/

/-- The mesh closes with a prune map that holds every failed tile, the numbering of the others, and OPEN by the floor, the edge and the
training; MESH_PRUNE_REQ, the field-map write with the bytes it leaves in flash, its failure and its retry (R18, R24, R26 to R33, R47,
R48). A TILE of 1,152 or more is cause 3 while a write runs as well (log 98), and a failed write is no longer busy until its retry (log
21). -/
def Obligations.MeshClosesAndKeepsItsFieldMap : Prop :=
  ∀ (s : State) (ok : Bool) (v : W32) (c : FieldChange), s.Inv →
    let m := s.mesh
    let r := c.apply m.field m.suspects
    let done : State := s.storeField r.1 r.2
    (s.powered = true → m.starting ≠ none → ∃ t, exec (.meshOpen ok) s = .next t ∧ t.mesh.starting = none ∧
      (∀ q, TileMap.has (m.prune ||| m.bist) q = true → TileMap.has t.mesh.prune q = true) ∧
      (∀ q, q ∈ t.l2p ↔ TileMap.has t.mesh.prune q = false) ∧
      (t.meshOpen = true ↔ 960 ≤ t.l2p.length ∧ m.edgeFail = false ∧ s.power.shutdown = false ∧ ∀ i : PortId, (s.ports[i]).trained = true) ∧
      t.mem = s.mem ∧ t.tiles = s.tiles) ∧
    (∀ h : v.toNat % 2048 < 1152, s.powered = true →
      let p : TileId := ⟨v.toNat % 2048, h⟩
      (m.write ≠ none → exec (.meshPruneReq v) s = .next (s.svcError p.1 5)) ∧
      (m.write = none → TileMap.has m.prune p = false → TileMap.has m.field p = false →
        exec (.meshPruneReq v) s = .next { s with mesh := { m with write := some (.prune p) } }) ∧
      (m.write = none → TileMap.has m.prune p = true ∨ TileMap.has m.field p = true →
        exec (.meshPruneReq v) s = .next s)) ∧
    (s.powered = true → 1152 ≤ v.toNat % 2048 → exec (.meshPruneReq v) s = .next (s.svcError (v.toNat % 2048) 3)) ∧
    (done.flashBytes (fieldCopyAt s.nextCopy.1) 184 = FieldImg.build s.nextCopy.2 r.1 r.2 ∧ done.mesh.field = r.1 ∧
      done.mesh.suspects = r.2 ∧ done.mem = s.mem) ∧
    (m.write = some c → m.writeQueue = [] →
      (∃ t, exec (.fieldMapWriteDone true) s = .next t ∧ t.mesh = { done.mesh with write := none } ∧ t.nv = done.nv) ∧
      exec (.fieldMapWriteDone false) s = .next { s with mesh := { m with write := none, retry := m.retry ++ [c] } }) ∧
    (∀ l, m.retry = c :: l →
      (∃ t, exec (.fieldMapRetry true) s = .next t ∧ t.mesh = { done.mesh with retry := l } ∧ t.nv = done.nv) ∧
      (∃ t, exec (.fieldMapRetry false) s = .next t ∧ t.mesh.fieldWriteFail = true ∧ t.mesh.retry = l ∧ t.mesh.svcValid = true ∧
        t.nv = s.nv ∧ t.mesh.field = m.field))

/-- A packet alone in its router leaves by the output of its route, with its detour, and reaches the neighbour or leaves the mesh; nothing
moves while the output is not ready; a packet for a pruned tile, an unanswered access and a failed one are recorded once (R37, R38, R42,
R46, R49, R459). That it is handed on in the same event is log 19. -/
def Obligations.PacketsFollowTheirRoute : Prop :=
  ∀ (s : State) (p q dst : TileId) (d out : Dir) (k k' : Packet) (b : Bool) (tgt : Option TileId) (v : W32) (addr : BitVec 48), s.Inv →
    s.powered = true →
    let m := s.mesh
    let recorded (t : State) (tile : Nat) (cause : BitVec 3) : Prop :=
      if m.svcValid = true then t.mesh = { m with svcCount := if m.svcCount = 255 then 255 else m.svcCount + 1 }
      else t.mesh = { m with svcValid := true, svcTile := BitVec.ofNat 11 tile, svcCause := cause, svcCount := 1 }
    (routerOff m.prune p = false → k.dest = .unicast dst →
      (TileMap.has m.prune dst = false → (s.router p).queue = [] → route m.prune p k = some (out, k') →
        (neighbour p out = some q → ∃ t, exec (.meshPacket p (some (d, k)) out true) s = .next t ∧ (t.router p).queue = [] ∧
          (t.router q).queue = (s.router q).queue ++ [(oppositeDir out, k')] ∧ t.mesh.delivered = m.delivered) ∧
        (neighbour p out = none → ∃ t, exec (.meshPacket p (some (d, k)) out true) s = .next t ∧ (t.router p).queue = [] ∧
          t.mesh.delivered = m.delivered ++ [⟨p, attachmentAt p out, k'⟩]) ∧
        (∃ t, exec (.meshPacket p (some (d, k)) out false) s = .next t ∧ (t.router p).queue = [(d, k)])) ∧
      (TileMap.has m.prune dst = true → ∃ t, exec (.meshPacket p (some (d, k)) out false) s = .next t ∧ recorded t dst.1 1)) ∧
    (routerOff m.prune p = true → exec (.meshPacket p (some (d, k)) out b) s = .next s) ∧
    (∃ t, exec (.serviceTreeTimeout tgt b) s = .next t ∧ recorded t (match tgt with
        | some q => q.1
        | none => 0x7FF) 2 ∧ (b = false → t.readValue = 0) ∧ t.mem = s.mem ∧ t.tiles = s.tiles) ∧
    (v.getLsbD 31 = true → exec (.meshSvcErrClear v) s = .next { s with mesh := { m with
      svcTile := 0, svcCause := 0, svcCount := 0, svcValid := false } }) ∧
    (v.getLsbD 31 = false → exec (.meshSvcErrClear v) s = .next s) ∧
    (sramBase 0 ≤ addr.toNat → addr.toNat < sramBase 1152 →
      let w : TileId := Fin.ofNat 1152 ((addr.toNat - sramBase 0) / 0x400_0000)
      (s.pruned w = true → ∃ t, exec (.failedAccess addr b) s = .next t ∧ recorded t w.1 1 ∧ (b = false → t.readValue = 0) ∧
        t.mem = s.mem) ∧
      (s.pruned w = false → 0x280_0000 ≤ addr.toNat % 0x400_0000 → ∃ t, exec (.failedAccess addr b) s = .next t ∧ recorded t w.1 4 ∧
        (b = false → t.readValue = 0) ∧ t.mem = s.mem) ∧
      (s.pruned w = false → addr.toNat % 0x400_0000 < 0x280_0000 → exec (.failedAccess addr b) s = .next s))

/-- The trust thread starts the chosen firmware or leaves the recovery service, which takes only a valid image; flash operations keep to
their slot, one at a time, never the slot in use nor a range that leaves a writable one (R396 to R400, R414, R444). Which blocks a
recovery resets is log 90, that a write stores what memory held at GO log 79. -/
def Obligations.BootAndFlashKeepTheirSlots : Prop :=
  ∀ (s : State) (image : List Byte) (v : W32), s.Inv → s.poisoned = [] →
    let x := s.boot
    let off := x.flashOff.toNat
    let len := x.flashLen.toNat
    let outside (t : State) : Prop := ∀ a, a < off ∨ off + len ≤ a → t.flashBytes a 1 = s.flashBytes a 1
    (s.powered = true → x.running = false → x.bootFail = false →
      (s.chooseImage true = none → ∃ t, exec .firmwareEntry s = .next t ∧ t.boot.bootFail = true ∧ t.boot.running = false ∧
        t.mem = s.mem) ∧
      (∀ b l f, s.chooseImage true = some (b, l, f) → ∃ t, exec .firmwareEntry s = .next t ∧ t.boot.running = true ∧
        t.boot.fwSlot = b ∧ t.boot.fwFallback = f ∧
        (∃ at0, hostSram ≤ at0 ∧ t.boot.entry = some (at0 + FlashImg.entry l) ∧
          ∀ i x, (FlashImg.body l)[i]? = some x → t.peek (at0 + i) = x) ∧ t.boot.a2.toNat = s.standby.slotId.toNat ∧
            t.boot.bootFail = false ∧
        t.measurement 2 = sha384 (l.take 0x100 ++ FlashImg.body l))) ∧
    (x.bootFail = true → image.length ≤ 0x400_0000 →
      (FlashImg.valid s.nv true image = true → ∃ t, exec (.recoveryWrite image) s = .next t ∧ t.boot = .reset ∧
        t.launch = .reset ∧ t.rtu = .reset ∧ t.spdm = .reset ∧ t.irq = .reset ∧ t.flashBytes 0 image.length = image ∧ t.mem = s.mem) ∧
      (FlashImg.valid s.nv true image = false → exec (.recoveryWrite image) s = .next s)) ∧
    (s.powered = true → s.power.shutdown = false → s.flashRefused true = true →
      exec .flashGo s = .next { s with boot := { x with flashErr := true } }) ∧
    (s.powered = true → s.power.shutdown = false → s.flashRefused true = false →
      ∃ t, exec .flashGo s = .next t ∧ outside t ∧ t.mem = s.mem ∧ t.boot = { x with
      flashBusy := true, flashOp := some (off, len, some (s.rdBytes x.flashSrc.toNat len)) }) ∧
    (s.powered = true → s.flashRefused false = true → exec .eraseOnly s = .next { s with boot := { x with flashErr := true } }) ∧
    (s.powered = true → s.flashRefused false = false → ∃ t, exec .eraseOnly s = .next t ∧ outside t ∧ t.mem = s.mem ∧ t.boot = { x with
      flashBusy := true, flashOp := some (off, len, none) }) ∧
    (x.flashBusy = true → s.flashRefused true = true ∧ s.flashRefused false = true) ∧
    (∀ b, s.slotInUse b = true → 0 < len → (flashSlot b.1 b.2).1 ≤ off → off + len ≤ (flashSlot b.1 b.2).1 + (flashSlot b.1 b.2).2 →
      s.flashRefused true = true ∧ s.flashRefused false = true) ∧
    ((∀ b : Bool × Bool, off < (flashSlot b.1 b.2).1 ∨ (flashSlot b.1 b.2).1 + (flashSlot b.1 b.2).2 < off + len) →
      s.flashRefused true = true ∧ s.flashRefused false = true) ∧
    (∀ o n, x.flashOp = some (o, n, none) → o + n ≤ 0x820_0000 → ∃ t, exec .flashDone s = .next t ∧
      t.flashBytes o n = List.replicate n 0xFF ∧
      t.boot = { x with flashBusy := false, flashDone := true, flashOp := none }) ∧
    (∀ o l, x.flashOp = some (o, l.length, some l) → o + l.length ≤ 0x820_0000 → ∃ t, exec .flashDone s = .next t ∧
      t.flashBytes o l.length = l ∧
      t.boot = { x with flashBusy := false, flashDone := true, flashOp := none }) ∧
    exec (.hstFlashStatusClear v) s = .next { s with boot := { x with
      flashDone := x.flashDone && !v.getLsbD 1, flashErr := x.flashErr && !v.getLsbD 2 } }

/-- The commands of SEC_CTL: a maintenance command is refused with its reason or starts its field-map write, and renews the nonce either
way; ENROL works once, MEASURE extends register 10, SVN_COMMIT only raises the fused minimum; more than one bit is refused (R401, R404 to
R407). That such a write and a refused ENROL keep the nonce, which the register text renews after each command, is log 81. -/
def Obligations.SecurityCommandsKeepTheFuses : Prop :=
  ∀ (s : State) (v : W32), s.Inv → s.poisoned = [] → s.powered = true →
    let x := s.sec
    let a := x.addr.toNat
    let h := s.rdBytes a 48
    (v.toNat % 16 = 1 → s.power.shutdown = false → a % 64 = 0 → a + 288 ≤ s.part.ddrEnd → ∃ t, exec (.maintenanceCommand v) s = .next t ∧
      t.sec.nonce = Config.freeValue s.freeCtr ∧ t.nv = s.nv ∧ t.mem = s.mem ∧
      (∀ r, s.cmdReason (s.rdBytes a 288) = some r → t.sec.reason = r ∧ t.sec.event = x.event ||| 2 ∧ t.mesh = s.mesh) ∧
      (s.cmdReason (s.rdBytes a 288) = none → t.sec.busy = true ∧ t.mesh.write ≠ none ∧ t.sec.event = x.event)) ∧
    (v.toNat % 16 = 2 →
      (s.nv.owner ≠ none → exec (.enrol v) s = .next { s with sec := { x with reason := 5, event := x.event ||| 2 } }) ∧
      (s.nv.owner = none → s.power.shutdown = false → a + 48 ≤ s.part.ddrEnd →
        ∃ t, exec (.enrol v) s = .next t ∧ t.nv = { s.nv with owner := some h } ∧
        t.sec.event.getLsbD 0 = true ∧ t.mem = s.mem)) ∧
    (v.toNat % 16 = 4 → s.power.shutdown = false → a + 48 ≤ s.part.ddrEnd →
      ∃ t, exec (.measure v) s = .next t ∧ t.nv = s.nv ∧ t.mem = s.mem ∧
      t.measurement 10 = sha384 (s.measurement 10 ++ h) ∧ t.sec.event.getLsbD 0 = true ∧
      ∀ i, 0 < i → i < 10 → t.measurement i = s.measurement i) ∧
    (v.toNat % 16 = 8 → ∃ t, exec (.svnCommit v) s = .next t ∧ t.sec.event.getLsbD 0 = true ∧ t.mem = s.mem ∧
      t.nv = { s.nv with minSvn := if s.boot.running = true ∧ s.nv.minSvn < s.boot.fwSvn then s.boot.fwSvn else s.nv.minSvn } ∧
      ∀ l, FlashImg.svn l < t.nv.minSvn.toNat → FlashImg.valid t.nv true l = false) ∧
    (v.toNat % 16 ∉ [0, 1, 2, 4, 8] →
      exec (.enrol v) s = .next { s with sec := { x with reason := 1, event := x.event ||| 2 } }) ∧
    exec (.secEventClear v) s = .next { s with sec := { x with event := x.event &&& ~~~ v.setWidth 3 } }

/-- SPDM: each request of an open connection gets its response (its contents for SPDM 1.2 are the model's, log 82), two requests
outstanding at once close it, a second connection is refused while one is open, and without one nothing is answered (R402, R408). -/
def Obligations.SpdmRequestsAreAnswered : Prop :=
  ∀ (s : State) (asym hash : BitVec 32) (slot index code : BitVec 8) (off len : Nat) (nonce : List Byte) (signed : Bool), s.Inv →
    let chain := s.certChain
    let answered (c : Instr) (r : SpdmResponse) : Prop := exec c s = .next { s with spdm := ⟨true, some r⟩ }
    (s.spdm.isOpen = true → s.pending.any isSpdmRequest = true →
      ∀ c ∈ ([.getVersion, .getCapabilities, .negotiateAlgorithms asym hash, .getDigests, .challenge 0 nonce,
        .getCertificate 0 off len, .getMeasurements index signed nonce, .unsupportedRequest code] : List Instr),
        exec c s = .next { s with spdm := ⟨false, none⟩ }) ∧
    (s.spdm.isOpen = true → s.powered = true → s.pending.any isSpdmRequest = false →
      answered .getVersion (.version [0x1200]) ∧ answered .getCapabilities (.capabilities 0x16) ∧
      answered (.negotiateAlgorithms asym hash) (.algorithms (asym &&& 0x80) (hash &&& 2)) ∧
      answered .getDigests (.digests (sha384 chain)) ∧
      answered (.getCertificate 0 off len)
        (.certificate ((chain.drop off).take (min len 4088)) (chain.length - off - min len 4088)) ∧
      (slot ≠ 0 → answered (.getCertificate slot off len) .unsupportedRequest ∧
        answered (.challenge slot nonce) .unsupportedRequest) ∧
      answered (.unsupportedRequest code) .unsupportedRequest ∧
      (∃ t n g, exec (.challenge 0 nonce) s = .next t ∧ t = { s with spdm := t.spdm, freeCtr := t.freeCtr } ∧
        t.spdm.response = some (.challengeAuth (sha384 chain) n g) ∧ n.length = 32 ∧ g.length = 96) ∧
      (1 ≤ index.toNat → index.toNat ≤ 10 → ∃ t n g, exec (.getMeasurements index signed nonce) s = .next t ∧
        t.spdm.response = some (.measurements [(index.toNat, s.measurement index.toNat)] n g) ∧ n.length = 32 ∧
        (g.length = 96 ∨ signed = false)) ∧
      exec (.spdmConnection .opened) s = .next s ∧
      exec (.spdmConnection .closed) s = .next { s with spdm := ⟨false, none⟩ }) ∧
    (s.spdm.isOpen = false → (s.powered = true → exec (.spdmConnection .opened) s = .next { s with spdm := ⟨true, none⟩ }) ∧
      exec .getVersion s = .next s ∧ exec (.challenge slot nonce) s = .next s ∧
      exec (.getMeasurements index signed nonce) s = .next s)

/-! ### Ethernet and the registers (chapters 14 and 16) -/

/-- On a powered module a received frame lands in the buffer at HEAD of its ring, or is counted where it has none or a bad FCS, or pauses
its priorities; a transmitted one is the bytes its descriptor names; ETH_P_CTL, RING_SIZE, TAIL, the events, the cages and the link (R409
to R413, R447, R448). The layout of a pause frame and how long it holds are log 108; the conditions of a link and of RUN, and that a frame
without a buffer is dropped for a priority with PFC enabled as well, log 83. -/
def Obligations.EthernetRingsMoveFrames : Prop :=
  ∀ (s : State) (p : EthId) (frame : List Byte) (fec unc : Nat) (r : Fin 9) (v : W32) (up present : Bool) (dw : Nat), s.Inv →
    s.poisoned = [] → s.powered = true →
    let x := s.ethPort p
    let fr := frameRing p frame
    let q := s.ring p fr
    let d := s.hostDesc p fr
    let tq := s.ring p txRing
    let td := s.hostDesc p txRing
    let withPort (y : EthPort) : State := { s with eth := s.eth.set p y }
    (x.run = true →
      exec (.ethRxFrame p frame false fec unc) s = .next (withPort { x with
        fecCorr := satAdd32 x.fecCorr fec, fecUnc := satAdd32 x.fecUnc unc, rxFcs := satAdd32 x.rxFcs 1 }) ∧
      (60 ≤ frame.length → frame.length ≤ 9212 → forPort p frame = true → p ≠ 4 → isPfc frame = true →
        exec (.ethRxFrame p frame true fec unc) s = .next (withPort { x with
          fecCorr := satAdd32 x.fecCorr fec, fecUnc := satAdd32 x.fecUnc unc, paused := pausedBy x.paused frame })) ∧
      (60 ≤ frame.length → frame.length ≤ 9212 → forPort p frame = true → p = 4 ∨ isPfc frame = false →
        (q.posted = 0 ∨ s.power.shutdown = true → exec (.ethRxFrame p frame true fec unc) s = .next (withPort { x with
          fecCorr := satAdd32 x.fecCorr fec, fecUnc := satAdd32 x.fecUnc unc, rxNobuf := satAdd32 x.rxNobuf 1 })) ∧
        (0 < q.posted → s.power.shutdown = false → d.1 % 64 = 0 → d.1 + d.2.1 ≤ s.part.ddrEnd → 9216 ≤ d.2.1 → d.2.1 % 64 = 0 →
          d.2.2 = 0 → q.every = 0 →
          (d.1 + frame.length ≤ q.desc + 0x10 ∨ q.desc + 0x20 ≤ d.1) →
          ∃ t, exec (.ethRxFrame p frame true fec unc) s = .next t ∧ t.rdBytes d.1 frame.length = frame ∧
            t.rdNat (q.desc + 0x10) 4 = frame.length ∧
            s.sameMemBut t ((List.range frame.length).map (d.1 + ·) ++ (List.range 16).map (q.desc + 0x10 + ·)) ∧
            (t.ethPort p).rxFrames = satAdd32 x.rxFrames 1 ∧ (t.ring p fr).pos = q.pos + 1 ∧
            (t.ring p fr).head.toNat = (q.head.toNat % q.len + 1) % q.len ∧ (t.ethPort p).event.getLsbD 1 = true)) ∧
      (0 < tq.posted → s.power.shutdown = false → td.1 + td.2.1 ≤ s.part.ddrEnd → 60 ≤ td.2.1 → td.2.1 ≤ 9212 → td.2.2 = 0 →
        ∃ t, exec (.ethTxDescriptor p) s = .next t ∧
          if p ≠ 4 ∧ x.paused.getLsbD (framePriority (s.rdBytes td.1 td.2.1)) = true ∧ (Config.freeValue s.freeCtr).getLsbD 0 = true
          then t = { s with freeCtr := s.freeCtr + 1 } else (t.ethPort p).sent = x.sent ++ [.frame (s.rdBytes td.1 td.2.1)] ∧
          (t.ethPort p).txFrames = satAdd32 x.txFrames 1 ∧ (t.ethPort p).event.getLsbD 2 = true ∧
          s.sameMemBut t ((List.range 16).map (tq.desc + 0x10 + ·)) ∧ (t.ring p txRing).pos = tq.pos + 1)) ∧
    (x.run = false → exec (.ethRxFrame p frame true fec unc) s = .next s ∧ exec (.ethTxDescriptor p) s = .next s ∧
      (hasRing p r = true → exec (.ringTailWrite p r v) s = .next (withPort { x with
          rings := x.rings.set r { x.rings[r] with tail := v.setWidth 16 } }) ∧
        exec (.ringSizeWrite p r v) s = .next (withPort { x with
          rings := x.rings.set r { x.rings[r] with size := v.setWidth 5, head := 0, tail := 0, pos := 0, sinceSig := 0 } })) ∧
      (v.getLsbD 0 = true → (∃ y ∈ x.rings.toList, y.outside s.part.ddrEnd = true) → ∃ t, exec (.ethRun p v) s = .next t ∧
        (t.ethPort p).run = false ∧ (t.ethPort p).event.getLsbD 3 = true) ∧
      (v.getLsbD 0 = true → (∀ y ∈ x.rings.toList, y.outside s.part.ddrEnd = false) → ∃ t, exec (.ethRun p v) s = .next t ∧
        (t.ethPort p).run = true ∧ t.mem = s.mem)) ∧
    (x.run = true → hasRing p r = true → exec (.ringSizeWrite p r v) s = .next (withPort { x with event := x.event ||| 8 })) ∧
    exec (.ethPEventClear p v) s = .next (withPort { x with event := x.event &&& ~~~ v.setWidth 4 }) ∧
    (p ≠ 4 → exec (.cageResetRelease p) s = .next (withPort { x with
      held := false, lowPower := !(x.present && decide (x.deciwatts ≤ 160)) })) ∧
    (x.present = true → p = 4 ∨ x.held = false ∧ x.lowPower = false → up ≠ x.link →
      exec (.linkChange p up) s = .next (withPort { x with link := up, event := x.event ||| 1 })) ∧
    (x.link = false → exec (.pluggablePresence p present dw) s = .next (withPort { x with
      present := present, deciwatts := dw, lowPower := decide (p ≠ 4 ∧ ¬ (x.held = false ∧ present = true ∧ dw ≤ 160)) })) ∧
    (x.link = true → present = false ∨ p ≠ 4 ∧ (x.held = true ∨ 160 < dw) → ∃ t, exec (.pluggablePresence p present dw) s = .next t ∧
      (t.ethPort p).link = false ∧ (t.ethPort p).event = x.event ||| 1)

/-- A read of a counter that a read clears delivers what its register holds, leaves zero there and every other register of its block as it
was (R11). -/
def Obligations.CounterReadsDeliverAndClear : Prop :=
  ∀ (s : State) (p : TileId) (i : PortId) (q : PlaneId) (e : EthId), s.Inv →
    let clears (c : Instr) (rd : State → Nat → W32) (off : Nat) : Prop := ∃ t, exec c s = .next t ∧ t.readValue = rd s off ∧
      rd t off = 0 ∧ (∀ o, o ≠ off → rd t o = rd s o) ∧ t.mem = s.mem ∧ t.launch = s.launch ∧ t.light.planes = s.light.planes
    let tile (x : State) : Nat → W32 := x.readTile p
    let port (x : State) : Nat → W32 := x.readPort i
    let opt (x : State) : Nat → W32 := x.readOpt q
    let eth (x : State) : Nat → W32 := x.readEth e
    (s.pruned p = false →
      clears (.tleArrCounterRead p .freeze) tile 0x404 ∧ clears (.tleArrCounterRead p .sat) tile 0x408 ∧
      clears (.tleArrCounterRead p .nannum) tile 0x40C ∧ clears (.tleArrCounterRead p .nonfin) tile 0x410 ∧
      clears (.tleTurnWaitRead p) tile 0x504 ∧ clears (.tleSeqCounterRead p .wait) tile 0x054 ∧
      clears (.tleSeqCounterRead p .qfull) tile 0x058 ∧ clears (.tleSeqCounterRead p .enter) tile 0x05C ∧
      clears (.tleVecCounterRead p .invalid) tile 0x604 ∧ clears (.tleVecCounterRead p .divzero) tile 0x608 ∧
      clears (.tleVecCounterRead p .sat) tile 0x60C ∧ clears (.tleVecCounterRead p .nannum) tile 0x610 ∧
      clears (.tleVecCounterRead p .nonfin) tile 0x614 ∧ clears (.tleVecCounterRead p .stall) tile 0x618 ∧
      clears (.tleVecCounterRead p .genWrap) tile 0x61C ∧ clears (.tleStrmCounterRead p .rearm) tile 0x708 ∧
      clears (.tleStrmCounterRead p .pairwait) tile 0x70C ∧ clears (.tleRtfCounterRead p .tokens) tile 0x804 ∧
      clears (.tleRtfCounterRead p .nonfin) tile 0x808 ∧ clears (.tleThermCounterRead p .hold) tile 0x904 ∧
      clears (.tleThermCounterRead p .stretch) tile 0x908) ∧
    clears (.rtuCounterRead .choices) State.readRtu 0x08 ∧ clears (.rtuCounterRead .nulls) State.readRtu 0x0C ∧
    clears (.rtuCounterRead .skips) State.readRtu 0x10 ∧ clears (.rtuCounterRead .evcalls) State.readRtu 0x14 ∧
    clears (.memCounterRead i .ce) port 0x00C ∧ clears (.memCounterRead i .ue) port 0x014 ∧
    clears (.memCounterRead i .mergeErr) port 0x028 ∧ clears (.gplCounterRead i .rows) port 0x104 ∧
    clears (.gplCounterRead i .oor) port 0x108 ∧ clears (.gplCounterRead i .bags) port 0x10C ∧
    clears (.updCounterRead i .units) port 0x204 ∧ clears (.updCounterRead i .catchup) port 0x208 ∧
    clears (.updCounterRead i .nonfin) port 0x210 ∧ clears (.updCounterRead i .restored) port 0x214 ∧
    clears (.updCounterRead i .stamperr) port 0x218 ∧ clears (.optCounterRead q .fecCorr) opt 0x2C ∧
    clears (.optCounterRead q .fecUnc) opt 0x30 ∧ clears (.optCounterRead q .crcErr) opt 0x34 ∧
    clears (.optCounterRead q .replayed) opt 0x38 ∧ clears (.optCounterRead q .holds) opt 0x144 ∧
    clears (.fabCounterRead .discard) State.readFab 0x20 ∧ clears (.fabCounterRead .noroute) State.readFab 0x24 ∧
    clears (.fabCounterRead .resent) State.readFab 0x28 ∧ clears (.pwrCounterRead .stretch) State.readPwr 0x4C ∧
    clears (.pwrCounterRead .throttle) State.readPwr 0x50 ∧ clears (.pwrCounterRead .warnCount) State.readPwr 0x54 ∧
    clears (.ethCounterRead e .rxFrames) eth 0x20 ∧ clears (.ethCounterRead e .rxFcs) eth 0x24 ∧
    clears (.ethCounterRead e .rxNobuf) eth 0x28 ∧ clears (.ethCounterRead e .txFrames) eth 0x2C ∧
    clears (.ethCounterRead e .fecCorr) eth 0x30 ∧ clears (.ethCounterRead e .fecUnc) eth 0x34 ∧
    clears (.ethCounterRead e .sigLost) eth 0x38

/-- A register written by a running hart reads back its writable bits, launch settings while no launch runs, health tables with RUN = 0;
while a launch runs a setting stays and WRITE_WHILE_RUN is set; an address without a register ignores the write; RTU_ERR clears by its
VALID bit (R11, R12, R143, R375, R459). -/
def Obligations.RegistersReadBackTheirWrites : Prop :=
  ∀ (s : State) (v : W32) (q : PlaneId) (i k : Nat) (addr : BitVec 48), s.Inv → i < 12 → k < 192 → s.hartRuns 0 = true →
    let keeps (x : Nat × W32) : Prop := ∃ t, exec (.registerWrite (BitVec.ofNat 48 x.1) v) s = .next t ∧
      t.readRegister x.1 = v &&& x.2 ∧ t.mem = s.mem ∧ t.tiles = s.tiles ∧ t.launch.run = s.launch.run
    let launch : List (Nat × W32) := [(0x7F00_0000_1008, 0xFFFF_FFFF), (0x7F00_0000_100C, 0xFFFF), (0x7F00_0000_1010, 0xFFFF_FFFF),
      (0x7F00_0000_1014, 0xFFFF), (0x7F00_0000_1018, 0x07FF_07FF), (0x7F00_0000_101C, 0x3F), (0x7F00_0000_1020, 0xFFFF_FFFF)]
    let health : List (Nat × W32) := [(0x7F00_0030_000C, 0x03FF_03FF), (0x7F00_0030_0010, 0xFF0F_03FF), (0x7F00_0030_0014, 0xFFFF),
      (0x7F00_0030_00C0 + 4 * i, 0xFF), (0x7F00_0030_0100 + 4 * k, 0x03FF_FFFF)]
    let always : List (Nat × W32) := [(0x7F00_0000_1034, 0xFFFF_FFFF), (0x7F00_0000_0018, 0x0FFF_FFFF), (0x7F00_0000_001C, 0x0FFF_FFFF),
      (0x7F00_0000_0020, 0xFFFF_FFFF), (0x7F00_0000_0024, 0xFFFF), (0x7F00_0010_0004, 0xFFFF_FFFF), (0x7F00_0010_0008, 0xFFFF),
      (0x7F00_0010_0050, 0xF), (0x7F00_0030_0460, 0xFFF), (0x7F00_0060_0040, 0x3F), (0x7F00_0200_0020 + 0x1_0000 * q.1, 0x1F)]
    (s.launch.run = false → ∀ x ∈ launch, keeps x) ∧
    (s.launch.run = true → ∀ x ∈ launch, exec (.registerWrite (BitVec.ofNat 48 x.1) v) s =
      .next { s with launch := { s.launch with writeWhileRun := true } }) ∧
    (s.health.run = false → ∀ x ∈ health, keeps x) ∧
    (s.health.run = true → ∀ x ∈ health, exec (.registerWrite (BitVec.ofNat 48 x.1) v) s =
      .next { s with health := { s.health with event := s.health.event ||| 0x40 } }) ∧
    (∀ x ∈ always, keeps x) ∧
    (placeOf s.part addr.toNat = .nowhere ∨ placeOf s.part addr.toNat = .hole → exec (.registerWrite addr v) s = .next s ∧
      s.readRegister addr.toNat = 0) ∧
    exec (.rtuErrClear v) s = .next { s with rtu := if v.getLsbD 31 then
      { s.rtu with errTile := 0, errCause := 0, errValid := false } else s.rtu }

end Statements
end

