-- ==== Sys2Proof/Laws/Sparse.lean ====
section
/-! SUPPORT. The laws of sparse data: read after write, and every write keeps the canonical form. -/
namespace Sys2Proof.Sparse

variable {α : Type}

theorem wfFrom_mono [DecidableEq α] {d : α} {lo lo' : Nat} {m : List (Nat × α)} (h : lo' ≤ lo)
    (w : wfFrom d lo m = true) : wfFrom d lo' m = true := by
  cases m with
  | nil => rfl
  | cons e l =>
    obtain ⟨a, v⟩ := e
    simp only [wfFrom, Bool.and_eq_true, decide_eq_true_eq] at w ⊢
    exact ⟨⟨by omega, w.1.2⟩, w.2⟩

theorem get_of_lt [DecidableEq α] {d : α} {lo k : Nat} {m : List (Nat × α)} (w : wfFrom d lo m = true)
    (h : k < lo) : get d m k = d := by
  cases m with
  | nil => rfl
  | cons e l =>
    obtain ⟨a, v⟩ := e
    simp only [wfFrom, Bool.and_eq_true, decide_eq_true_eq] at w
    simp only [get]
    rw [if_neg (by omega), if_pos (by omega)]

theorem get_insert (d : α) (m : List (Nat × α)) (k j : Nat) (x : α) :
    get d (insert k x m) j = if j = k then x else get d m j := by
  induction m with
  | nil =>
    simp only [insert, get]
    by_cases h : j = k <;> by_cases h2 : j < k <;> simp [h, h2]
  | cons e l ih =>
    obtain ⟨a, v⟩ := e
    simp only [insert]
    split
    · subst_vars
      simp only [get]
      by_cases h : j = a <;> simp [h]
    · split
      · simp only [get]
        by_cases h : j = k
        · simp [h]
        · simp only [h, if_false]
          by_cases h2 : j < k
          · simp only [h2, if_true]
            rw [if_neg (by omega), if_pos (by omega)]
          · simp [h2]
      · simp only [get]
        rw [ih]
        by_cases h : j = k
        · subst h
          simp only [if_true]
          rw [if_neg (by omega), if_neg (by omega)]
        · simp [h]

theorem get_erase [DecidableEq α] {d : α} {lo : Nat} {m : List (Nat × α)} (w : wfFrom d lo m = true) (k j : Nat) :
    get d (erase k m) j = if j = k then d else get d m j := by
  induction m generalizing lo with
  | nil => simp [erase, get]
  | cons e l ih =>
    obtain ⟨a, v⟩ := e
    have w' := w
    simp only [wfFrom, Bool.and_eq_true, decide_eq_true_eq] at w'
    simp only [erase]
    split
    · subst_vars
      by_cases h : j = a
      · subst h
        simp only [if_true]
        exact get_of_lt w'.2 (by omega)
      · simp only [get, h, if_false]
        split
        · exact get_of_lt w'.2 (by omega)
        · rfl
    · split
      · by_cases h : j = k
        · subst h
          simp only [get, if_true]
          rw [if_neg (by omega), if_pos (by omega)]
        · simp [h]
      · simp only [get]
        rw [ih w'.2]
        by_cases h : j = k
        · subst h
          simp only [if_true]
          rw [if_neg (by omega), if_neg (by omega)]
        · simp [h]

theorem wf_erase [DecidableEq α] {d : α} {lo : Nat} {m : List (Nat × α)} (w : wfFrom d lo m = true) (k : Nat) :
    wfFrom d lo (erase k m) = true := by
  induction m generalizing lo with
  | nil => rfl
  | cons e l ih =>
    obtain ⟨a, v⟩ := e
    have w' := w
    simp only [wfFrom, Bool.and_eq_true, decide_eq_true_eq] at w'
    simp only [erase]
    split
    · exact wfFrom_mono (by omega) w'.2
    · split
      · exact w
      · simp only [wfFrom, Bool.and_eq_true, decide_eq_true_eq]
        exact ⟨w'.1, ih w'.2⟩

theorem wf_insert [DecidableEq α] {d : α} {lo : Nat} {m : List (Nat × α)} (w : wfFrom d lo m = true) (k : Nat)
    (x : α) (hk : lo ≤ k) (hx : x ≠ d) : wfFrom d lo (insert k x m) = true := by
  induction m generalizing lo with
  | nil => simp [insert, wfFrom, hk, hx]
  | cons e l ih =>
    obtain ⟨a, v⟩ := e
    have w' := w
    simp only [wfFrom, Bool.and_eq_true, decide_eq_true_eq] at w'
    simp only [insert]
    split
    · subst_vars
      simp only [wfFrom, Bool.and_eq_true, decide_eq_true_eq]
      exact ⟨⟨hk, hx⟩, w'.2⟩
    · split
      · simp only [wfFrom, Bool.and_eq_true, decide_eq_true_eq]
        exact ⟨⟨hk, hx⟩, ⟨by omega, w'.1.2⟩, w'.2⟩
      · simp only [wfFrom, Bool.and_eq_true, decide_eq_true_eq]
        exact ⟨w'.1, ih w'.2 (by omega)⟩

/-- Every write keeps the canonical form. -/
theorem wf_set [DecidableEq α] {d : α} {m : List (Nat × α)} (w : wf d m = true) (k : Nat) (x : α) :
    wf d (set d m k x) = true := by
  unfold set
  split
  · exact wf_erase w k
  · exact wf_insert w k x (Nat.zero_le k) ‹_›

/-- Read after write. -/
theorem get_set [DecidableEq α] {d : α} {m : List (Nat × α)} (w : wf d m = true) (k j : Nat) (x : α) :
    get d (set d m k x) j = if j = k then x else get d m j := by
  unfold set
  split
  · subst_vars
    exact get_erase w k j
  · exact get_insert d m k j x

theorem insert_insert (m : List (Nat × α)) (k : Nat) (x y : α) : insert k y (insert k x m) = insert k y m := by
  induction m with
  | nil => simp [insert]
  | cons e l ih =>
    obtain ⟨a, v⟩ := e
    simp only [insert]
    by_cases h : k = a
    · simp [h, insert]
    · by_cases h2 : k < a
      · simp [h, h2, insert]
      · simp [h, h2, insert, ih]

theorem insert_erase [DecidableEq α] {d : α} {lo : Nat} {m : List (Nat × α)} (w : wfFrom d lo m = true) (k : Nat) (x : α) :
    insert k x (erase k m) = insert k x m := by
  induction m generalizing lo with
  | nil => rfl
  | cons e l ih =>
    obtain ⟨a, v⟩ := e
    have w' := w
    simp only [wfFrom, Bool.and_eq_true, decide_eq_true_eq] at w'
    simp only [erase]
    by_cases h : k = a
    · subst h
      simp only [if_true, insert]
      cases l with
      | nil => rfl
      | cons f l =>
        obtain ⟨b, u⟩ := f
        have w2 := w'.2
        simp only [wfFrom, Bool.and_eq_true, decide_eq_true_eq] at w2
        simp only [insert]
        rw [if_neg (by omega), if_pos (by omega)]
    · by_cases h2 : k < a
      · simp [h, h2]
      · simp [h, h2, insert, ih w'.2]

theorem erase_insert [DecidableEq α] {d : α} {lo : Nat} {m : List (Nat × α)} (w : wfFrom d lo m = true) (k : Nat) (x : α) :
    erase k (insert k x m) = erase k m := by
  induction m generalizing lo with
  | nil => simp [insert, erase]
  | cons e l ih =>
    obtain ⟨a, v⟩ := e
    have w' := w
    simp only [wfFrom, Bool.and_eq_true, decide_eq_true_eq] at w'
    simp only [insert]
    by_cases h : k = a
    · simp [h, erase]
    · by_cases h2 : k < a
      · simp [h, h2, erase]
      · simp [h, h2, erase, ih w'.2]

theorem erase_erase [DecidableEq α] {d : α} {lo : Nat} {m : List (Nat × α)} (w : wfFrom d lo m = true) (k : Nat) :
    erase k (erase k m) = erase k m := by
  induction m generalizing lo with
  | nil => rfl
  | cons e l ih =>
    obtain ⟨a, v⟩ := e
    have w' := w
    simp only [wfFrom, Bool.and_eq_true, decide_eq_true_eq] at w'
    simp only [erase]
    by_cases h : k = a
    · subst h
      simp only [if_true]
      cases l with
      | nil => rfl
      | cons f l =>
        obtain ⟨b, u⟩ := f
        have w2 := w'.2
        simp only [wfFrom, Bool.and_eq_true, decide_eq_true_eq] at w2
        simp only [erase]
        rw [if_neg (by omega), if_pos (by omega)]
    · by_cases h2 : k < a
      · simp [h, h2, erase]
      · simp [h, h2, erase, ih w'.2]

/-- The last write of a key wins. -/
theorem set_set [DecidableEq α] {d : α} {m : List (Nat × α)} (w : wf d m = true) (k : Nat) (x y : α) :
    set d (set d m k x) k y = set d m k y := by
  unfold set
  split <;> split
  · exact erase_erase w k
  · exact erase_insert w k x
  · exact insert_erase w k y
  · exact insert_insert m k x y

end Sys2Proof.Sparse
end

