-- ==== Sys2Proof/Laws/State.lean ====
section
/-!
SUPPORT. One lemma for each field under each basic update of the state: what the update leaves, and what it sets.
-/
namespace Sys2Proof.Machine.State

variable (s : State)

section
variable (a : Nat) (b : Byte)
@[simp] theorem wr_part : (s.wr a b).part = s.part := rfl
@[simp] theorem wr_tiles : (s.wr a b).tiles = s.tiles := rfl
@[simp] theorem wr_l2p : (s.wr a b).l2p = s.l2p := rfl
@[simp] theorem wr_meshOpen : (s.wr a b).meshOpen = s.meshOpen := rfl
@[simp] theorem wr_rawTotals : (s.wr a b).rawTotals = s.rawTotals := rfl
@[simp] theorem wr_poisoned : (s.wr a b).poisoned = s.poisoned := rfl
@[simp] theorem wr_ports : (s.wr a b).ports = s.ports := rfl
@[simp] theorem wr_launch : (s.wr a b).launch = s.launch := rfl
@[simp] theorem wr_job : (s.wr a b).job = s.job := rfl
@[simp] theorem wr_hostTallies : (s.wr a b).hostTallies = s.hostTallies := rfl
@[simp] theorem wr_light : (s.wr a b).light = s.light := rfl
@[simp] theorem wr_fabric : (s.wr a b).fabric = s.fabric := rfl
@[simp] theorem wr_steps : (s.wr a b).steps = s.steps := rfl
@[simp] theorem wr_health : (s.wr a b).health = s.health := rfl
@[simp] theorem wr_rtu : (s.wr a b).rtu = s.rtu := rfl
@[simp] theorem wr_mesh : (s.wr a b).mesh = s.mesh := rfl
@[simp] theorem wr_standby : (s.wr a b).standby = s.standby := rfl
@[simp] theorem wr_power : (s.wr a b).power = s.power := rfl
@[simp] theorem wr_nv : (s.wr a b).nv = s.nv := rfl
@[simp] theorem wr_boot : (s.wr a b).boot = s.boot := rfl
@[simp] theorem wr_sec : (s.wr a b).sec = s.sec := rfl
@[simp] theorem wr_spdm : (s.wr a b).spdm = s.spdm := rfl
@[simp] theorem wr_eth : (s.wr a b).eth = s.eth := rfl
@[simp] theorem wr_irq : (s.wr a b).irq = s.irq := rfl
@[simp] theorem wr_readData : (s.wr a b).readData = s.readData := rfl
@[simp] theorem wr_readValue : (s.wr a b).readValue = s.readValue := rfl
@[simp] theorem wr_pending : (s.wr a b).pending = s.pending := rfl
@[simp] theorem wr_freeCtr : (s.wr a b).freeCtr = s.freeCtr := rfl
end

section
variable (p : TileId) (t : Tile)
@[simp] theorem setTile_part : (s.setTile p t).part = s.part := rfl
@[simp] theorem setTile_l2p : (s.setTile p t).l2p = s.l2p := rfl
@[simp] theorem setTile_meshOpen : (s.setTile p t).meshOpen = s.meshOpen := rfl
@[simp] theorem setTile_mem : (s.setTile p t).mem = s.mem := rfl
@[simp] theorem setTile_rawTotals : (s.setTile p t).rawTotals = s.rawTotals := rfl
@[simp] theorem setTile_poisoned : (s.setTile p t).poisoned = s.poisoned := rfl
@[simp] theorem setTile_ports : (s.setTile p t).ports = s.ports := rfl
@[simp] theorem setTile_launch : (s.setTile p t).launch = s.launch := rfl
@[simp] theorem setTile_job : (s.setTile p t).job = s.job := rfl
@[simp] theorem setTile_hostTallies : (s.setTile p t).hostTallies = s.hostTallies := rfl
@[simp] theorem setTile_light : (s.setTile p t).light = s.light := rfl
@[simp] theorem setTile_fabric : (s.setTile p t).fabric = s.fabric := rfl
@[simp] theorem setTile_steps : (s.setTile p t).steps = s.steps := rfl
@[simp] theorem setTile_health : (s.setTile p t).health = s.health := rfl
@[simp] theorem setTile_rtu : (s.setTile p t).rtu = s.rtu := rfl
@[simp] theorem setTile_mesh : (s.setTile p t).mesh = s.mesh := rfl
@[simp] theorem setTile_standby : (s.setTile p t).standby = s.standby := rfl
@[simp] theorem setTile_power : (s.setTile p t).power = s.power := rfl
@[simp] theorem setTile_nv : (s.setTile p t).nv = s.nv := rfl
@[simp] theorem setTile_boot : (s.setTile p t).boot = s.boot := rfl
@[simp] theorem setTile_sec : (s.setTile p t).sec = s.sec := rfl
@[simp] theorem setTile_spdm : (s.setTile p t).spdm = s.spdm := rfl
@[simp] theorem setTile_eth : (s.setTile p t).eth = s.eth := rfl
@[simp] theorem setTile_irq : (s.setTile p t).irq = s.irq := rfl
@[simp] theorem setTile_readData : (s.setTile p t).readData = s.readData := rfl
@[simp] theorem setTile_readValue : (s.setTile p t).readValue = s.readValue := rfl
@[simp] theorem setTile_pending : (s.setTile p t).pending = s.pending := rfl
@[simp] theorem setTile_freeCtr : (s.setTile p t).freeCtr = s.freeCtr := rfl
end

section
variable (p : TileId) (g : Tile → Tile)
@[simp] theorem modTile_part : (s.modTile p g).part = s.part := rfl
@[simp] theorem modTile_l2p : (s.modTile p g).l2p = s.l2p := rfl
@[simp] theorem modTile_meshOpen : (s.modTile p g).meshOpen = s.meshOpen := rfl
@[simp] theorem modTile_mem : (s.modTile p g).mem = s.mem := rfl
@[simp] theorem modTile_rawTotals : (s.modTile p g).rawTotals = s.rawTotals := rfl
@[simp] theorem modTile_poisoned : (s.modTile p g).poisoned = s.poisoned := rfl
@[simp] theorem modTile_ports : (s.modTile p g).ports = s.ports := rfl
@[simp] theorem modTile_launch : (s.modTile p g).launch = s.launch := rfl
@[simp] theorem modTile_job : (s.modTile p g).job = s.job := rfl
@[simp] theorem modTile_hostTallies : (s.modTile p g).hostTallies = s.hostTallies := rfl
@[simp] theorem modTile_light : (s.modTile p g).light = s.light := rfl
@[simp] theorem modTile_fabric : (s.modTile p g).fabric = s.fabric := rfl
@[simp] theorem modTile_steps : (s.modTile p g).steps = s.steps := rfl
@[simp] theorem modTile_health : (s.modTile p g).health = s.health := rfl
@[simp] theorem modTile_rtu : (s.modTile p g).rtu = s.rtu := rfl
@[simp] theorem modTile_mesh : (s.modTile p g).mesh = s.mesh := rfl
@[simp] theorem modTile_standby : (s.modTile p g).standby = s.standby := rfl
@[simp] theorem modTile_power : (s.modTile p g).power = s.power := rfl
@[simp] theorem modTile_nv : (s.modTile p g).nv = s.nv := rfl
@[simp] theorem modTile_boot : (s.modTile p g).boot = s.boot := rfl
@[simp] theorem modTile_sec : (s.modTile p g).sec = s.sec := rfl
@[simp] theorem modTile_spdm : (s.modTile p g).spdm = s.spdm := rfl
@[simp] theorem modTile_eth : (s.modTile p g).eth = s.eth := rfl
@[simp] theorem modTile_irq : (s.modTile p g).irq = s.irq := rfl
@[simp] theorem modTile_readData : (s.modTile p g).readData = s.readData := rfl
@[simp] theorem modTile_readValue : (s.modTile p g).readValue = s.readValue := rfl
@[simp] theorem modTile_pending : (s.modTile p g).pending = s.pending := rfl
@[simp] theorem modTile_freeCtr : (s.modTile p g).freeCtr = s.freeCtr := rfl
end

section
variable (p : TileId) (g : Tile → Tile)
@[simp] theorem thenTile_part : (s.thenTile p g).part = s.part := rfl
@[simp] theorem thenTile_l2p : (s.thenTile p g).l2p = s.l2p := rfl
@[simp] theorem thenTile_meshOpen : (s.thenTile p g).meshOpen = s.meshOpen := rfl
@[simp] theorem thenTile_mem : (s.thenTile p g).mem = s.mem := rfl
@[simp] theorem thenTile_rawTotals : (s.thenTile p g).rawTotals = s.rawTotals := rfl
@[simp] theorem thenTile_poisoned : (s.thenTile p g).poisoned = s.poisoned := rfl
@[simp] theorem thenTile_ports : (s.thenTile p g).ports = s.ports := rfl
@[simp] theorem thenTile_launch : (s.thenTile p g).launch = s.launch := rfl
@[simp] theorem thenTile_job : (s.thenTile p g).job = s.job := rfl
@[simp] theorem thenTile_hostTallies : (s.thenTile p g).hostTallies = s.hostTallies := rfl
@[simp] theorem thenTile_light : (s.thenTile p g).light = s.light := rfl
@[simp] theorem thenTile_fabric : (s.thenTile p g).fabric = s.fabric := rfl
@[simp] theorem thenTile_steps : (s.thenTile p g).steps = s.steps := rfl
@[simp] theorem thenTile_health : (s.thenTile p g).health = s.health := rfl
@[simp] theorem thenTile_rtu : (s.thenTile p g).rtu = s.rtu := rfl
@[simp] theorem thenTile_mesh : (s.thenTile p g).mesh = s.mesh := rfl
@[simp] theorem thenTile_standby : (s.thenTile p g).standby = s.standby := rfl
@[simp] theorem thenTile_power : (s.thenTile p g).power = s.power := rfl
@[simp] theorem thenTile_nv : (s.thenTile p g).nv = s.nv := rfl
@[simp] theorem thenTile_boot : (s.thenTile p g).boot = s.boot := rfl
@[simp] theorem thenTile_sec : (s.thenTile p g).sec = s.sec := rfl
@[simp] theorem thenTile_spdm : (s.thenTile p g).spdm = s.spdm := rfl
@[simp] theorem thenTile_eth : (s.thenTile p g).eth = s.eth := rfl
@[simp] theorem thenTile_irq : (s.thenTile p g).irq = s.irq := rfl
@[simp] theorem thenTile_readData : (s.thenTile p g).readData = s.readData := rfl
@[simp] theorem thenTile_readValue : (s.thenTile p g).readValue = s.readValue := rfl
@[simp] theorem thenTile_pending : (s.thenTile p g).pending = s.pending := rfl
@[simp] theorem thenTile_freeCtr : (s.thenTile p g).freeCtr = s.freeCtr := rfl
end

section
variable (p : TileId) (n : Nat) (w : Bool)
@[simp] theorem advance_part : (s.advance p n w).part = s.part := rfl
@[simp] theorem advance_l2p : (s.advance p n w).l2p = s.l2p := rfl
@[simp] theorem advance_meshOpen : (s.advance p n w).meshOpen = s.meshOpen := rfl
@[simp] theorem advance_mem : (s.advance p n w).mem = s.mem := rfl
@[simp] theorem advance_rawTotals : (s.advance p n w).rawTotals = s.rawTotals := rfl
@[simp] theorem advance_poisoned : (s.advance p n w).poisoned = s.poisoned := rfl
@[simp] theorem advance_ports : (s.advance p n w).ports = s.ports := rfl
@[simp] theorem advance_launch : (s.advance p n w).launch = s.launch := rfl
@[simp] theorem advance_job : (s.advance p n w).job = s.job := rfl
@[simp] theorem advance_hostTallies : (s.advance p n w).hostTallies = s.hostTallies := rfl
@[simp] theorem advance_light : (s.advance p n w).light = s.light := rfl
@[simp] theorem advance_fabric : (s.advance p n w).fabric = s.fabric := rfl
@[simp] theorem advance_steps : (s.advance p n w).steps = s.steps := rfl
@[simp] theorem advance_health : (s.advance p n w).health = s.health := rfl
@[simp] theorem advance_rtu : (s.advance p n w).rtu = s.rtu := rfl
@[simp] theorem advance_mesh : (s.advance p n w).mesh = s.mesh := rfl
@[simp] theorem advance_standby : (s.advance p n w).standby = s.standby := rfl
@[simp] theorem advance_power : (s.advance p n w).power = s.power := rfl
@[simp] theorem advance_nv : (s.advance p n w).nv = s.nv := rfl
@[simp] theorem advance_boot : (s.advance p n w).boot = s.boot := rfl
@[simp] theorem advance_sec : (s.advance p n w).sec = s.sec := rfl
@[simp] theorem advance_spdm : (s.advance p n w).spdm = s.spdm := rfl
@[simp] theorem advance_eth : (s.advance p n w).eth = s.eth := rfl
@[simp] theorem advance_irq : (s.advance p n w).irq = s.irq := rfl
@[simp] theorem advance_readData : (s.advance p n w).readData = s.readData := rfl
@[simp] theorem advance_readValue : (s.advance p n w).readValue = s.readValue := rfl
@[simp] theorem advance_pending : (s.advance p n w).pending = s.pending := rfl
@[simp] theorem advance_freeCtr : (s.advance p n w).freeCtr = s.freeCtr := rfl
end

section
variable (g : Nat → Bool)
@[simp] theorem clearPoison_part : (s.clearPoison g).part = s.part := rfl
@[simp] theorem clearPoison_tiles : (s.clearPoison g).tiles = s.tiles := rfl
@[simp] theorem clearPoison_l2p : (s.clearPoison g).l2p = s.l2p := rfl
@[simp] theorem clearPoison_meshOpen : (s.clearPoison g).meshOpen = s.meshOpen := rfl
@[simp] theorem clearPoison_mem : (s.clearPoison g).mem = s.mem := rfl
@[simp] theorem clearPoison_rawTotals : (s.clearPoison g).rawTotals = s.rawTotals := rfl
@[simp] theorem clearPoison_ports : (s.clearPoison g).ports = s.ports := rfl
@[simp] theorem clearPoison_launch : (s.clearPoison g).launch = s.launch := rfl
@[simp] theorem clearPoison_job : (s.clearPoison g).job = s.job := rfl
@[simp] theorem clearPoison_hostTallies : (s.clearPoison g).hostTallies = s.hostTallies := rfl
@[simp] theorem clearPoison_light : (s.clearPoison g).light = s.light := rfl
@[simp] theorem clearPoison_fabric : (s.clearPoison g).fabric = s.fabric := rfl
@[simp] theorem clearPoison_steps : (s.clearPoison g).steps = s.steps := rfl
@[simp] theorem clearPoison_health : (s.clearPoison g).health = s.health := rfl
@[simp] theorem clearPoison_rtu : (s.clearPoison g).rtu = s.rtu := rfl
@[simp] theorem clearPoison_mesh : (s.clearPoison g).mesh = s.mesh := rfl
@[simp] theorem clearPoison_standby : (s.clearPoison g).standby = s.standby := rfl
@[simp] theorem clearPoison_power : (s.clearPoison g).power = s.power := rfl
@[simp] theorem clearPoison_nv : (s.clearPoison g).nv = s.nv := rfl
@[simp] theorem clearPoison_boot : (s.clearPoison g).boot = s.boot := rfl
@[simp] theorem clearPoison_sec : (s.clearPoison g).sec = s.sec := rfl
@[simp] theorem clearPoison_spdm : (s.clearPoison g).spdm = s.spdm := rfl
@[simp] theorem clearPoison_eth : (s.clearPoison g).eth = s.eth := rfl
@[simp] theorem clearPoison_irq : (s.clearPoison g).irq = s.irq := rfl
@[simp] theorem clearPoison_readData : (s.clearPoison g).readData = s.readData := rfl
@[simp] theorem clearPoison_readValue : (s.clearPoison g).readValue = s.readValue := rfl
@[simp] theorem clearPoison_pending : (s.clearPoison g).pending = s.pending := rfl
@[simp] theorem clearPoison_freeCtr : (s.clearPoison g).freeCtr = s.freeCtr := rfl
end

section
variable (e : BitVec 3)
@[simp] theorem noteEnd_part : (s.noteEnd e).part = s.part := rfl
@[simp] theorem noteEnd_tiles : (s.noteEnd e).tiles = s.tiles := rfl
@[simp] theorem noteEnd_l2p : (s.noteEnd e).l2p = s.l2p := rfl
@[simp] theorem noteEnd_meshOpen : (s.noteEnd e).meshOpen = s.meshOpen := rfl
@[simp] theorem noteEnd_mem : (s.noteEnd e).mem = s.mem := rfl
@[simp] theorem noteEnd_rawTotals : (s.noteEnd e).rawTotals = s.rawTotals := rfl
@[simp] theorem noteEnd_poisoned : (s.noteEnd e).poisoned = s.poisoned := rfl
@[simp] theorem noteEnd_ports : (s.noteEnd e).ports = s.ports := rfl
@[simp] theorem noteEnd_job : (s.noteEnd e).job = s.job := rfl
@[simp] theorem noteEnd_hostTallies : (s.noteEnd e).hostTallies = s.hostTallies := rfl
@[simp] theorem noteEnd_light : (s.noteEnd e).light = s.light := rfl
@[simp] theorem noteEnd_fabric : (s.noteEnd e).fabric = s.fabric := rfl
@[simp] theorem noteEnd_steps : (s.noteEnd e).steps = s.steps := rfl
@[simp] theorem noteEnd_health : (s.noteEnd e).health = s.health := rfl
@[simp] theorem noteEnd_rtu : (s.noteEnd e).rtu = s.rtu := rfl
@[simp] theorem noteEnd_mesh : (s.noteEnd e).mesh = s.mesh := rfl
@[simp] theorem noteEnd_standby : (s.noteEnd e).standby = s.standby := rfl
@[simp] theorem noteEnd_power : (s.noteEnd e).power = s.power := rfl
@[simp] theorem noteEnd_nv : (s.noteEnd e).nv = s.nv := rfl
@[simp] theorem noteEnd_boot : (s.noteEnd e).boot = s.boot := rfl
@[simp] theorem noteEnd_sec : (s.noteEnd e).sec = s.sec := rfl
@[simp] theorem noteEnd_spdm : (s.noteEnd e).spdm = s.spdm := rfl
@[simp] theorem noteEnd_eth : (s.noteEnd e).eth = s.eth := rfl
@[simp] theorem noteEnd_irq : (s.noteEnd e).irq = s.irq := rfl
@[simp] theorem noteEnd_readData : (s.noteEnd e).readData = s.readData := rfl
@[simp] theorem noteEnd_readValue : (s.noteEnd e).readValue = s.readValue := rfl
@[simp] theorem noteEnd_pending : (s.noteEnd e).pending = s.pending := rfl
@[simp] theorem noteEnd_freeCtr : (s.noteEnd e).freeCtr = s.freeCtr := rfl
end

section
variable (g : LaunchRegs → LaunchRegs)
@[simp] theorem modLaunch_part : (s.modLaunch g).part = s.part := rfl
@[simp] theorem modLaunch_tiles : (s.modLaunch g).tiles = s.tiles := rfl
@[simp] theorem modLaunch_l2p : (s.modLaunch g).l2p = s.l2p := rfl
@[simp] theorem modLaunch_meshOpen : (s.modLaunch g).meshOpen = s.meshOpen := rfl
@[simp] theorem modLaunch_mem : (s.modLaunch g).mem = s.mem := rfl
@[simp] theorem modLaunch_rawTotals : (s.modLaunch g).rawTotals = s.rawTotals := rfl
@[simp] theorem modLaunch_poisoned : (s.modLaunch g).poisoned = s.poisoned := rfl
@[simp] theorem modLaunch_ports : (s.modLaunch g).ports = s.ports := rfl
@[simp] theorem modLaunch_launch : (s.modLaunch g).launch = g s.launch := rfl
@[simp] theorem modLaunch_job : (s.modLaunch g).job = s.job := rfl
@[simp] theorem modLaunch_hostTallies : (s.modLaunch g).hostTallies = s.hostTallies := rfl
@[simp] theorem modLaunch_light : (s.modLaunch g).light = s.light := rfl
@[simp] theorem modLaunch_fabric : (s.modLaunch g).fabric = s.fabric := rfl
@[simp] theorem modLaunch_steps : (s.modLaunch g).steps = s.steps := rfl
@[simp] theorem modLaunch_health : (s.modLaunch g).health = s.health := rfl
@[simp] theorem modLaunch_rtu : (s.modLaunch g).rtu = s.rtu := rfl
@[simp] theorem modLaunch_mesh : (s.modLaunch g).mesh = s.mesh := rfl
@[simp] theorem modLaunch_standby : (s.modLaunch g).standby = s.standby := rfl
@[simp] theorem modLaunch_power : (s.modLaunch g).power = s.power := rfl
@[simp] theorem modLaunch_nv : (s.modLaunch g).nv = s.nv := rfl
@[simp] theorem modLaunch_boot : (s.modLaunch g).boot = s.boot := rfl
@[simp] theorem modLaunch_sec : (s.modLaunch g).sec = s.sec := rfl
@[simp] theorem modLaunch_spdm : (s.modLaunch g).spdm = s.spdm := rfl
@[simp] theorem modLaunch_eth : (s.modLaunch g).eth = s.eth := rfl
@[simp] theorem modLaunch_irq : (s.modLaunch g).irq = s.irq := rfl
@[simp] theorem modLaunch_readData : (s.modLaunch g).readData = s.readData := rfl
@[simp] theorem modLaunch_readValue : (s.modLaunch g).readValue = s.readValue := rfl
@[simp] theorem modLaunch_pending : (s.modLaunch g).pending = s.pending := rfl
@[simp] theorem modLaunch_freeCtr : (s.modLaunch g).freeCtr = s.freeCtr := rfl
end

section
variable (g : Fabric → Fabric)
@[simp] theorem modFabric_part : (s.modFabric g).part = s.part := rfl
@[simp] theorem modFabric_tiles : (s.modFabric g).tiles = s.tiles := rfl
@[simp] theorem modFabric_l2p : (s.modFabric g).l2p = s.l2p := rfl
@[simp] theorem modFabric_meshOpen : (s.modFabric g).meshOpen = s.meshOpen := rfl
@[simp] theorem modFabric_mem : (s.modFabric g).mem = s.mem := rfl
@[simp] theorem modFabric_rawTotals : (s.modFabric g).rawTotals = s.rawTotals := rfl
@[simp] theorem modFabric_poisoned : (s.modFabric g).poisoned = s.poisoned := rfl
@[simp] theorem modFabric_ports : (s.modFabric g).ports = s.ports := rfl
@[simp] theorem modFabric_launch : (s.modFabric g).launch = s.launch := rfl
@[simp] theorem modFabric_job : (s.modFabric g).job = s.job := rfl
@[simp] theorem modFabric_hostTallies : (s.modFabric g).hostTallies = s.hostTallies := rfl
@[simp] theorem modFabric_light : (s.modFabric g).light = s.light := rfl
@[simp] theorem modFabric_fabric : (s.modFabric g).fabric = g s.fabric := rfl
@[simp] theorem modFabric_steps : (s.modFabric g).steps = s.steps := rfl
@[simp] theorem modFabric_health : (s.modFabric g).health = s.health := rfl
@[simp] theorem modFabric_rtu : (s.modFabric g).rtu = s.rtu := rfl
@[simp] theorem modFabric_mesh : (s.modFabric g).mesh = s.mesh := rfl
@[simp] theorem modFabric_standby : (s.modFabric g).standby = s.standby := rfl
@[simp] theorem modFabric_power : (s.modFabric g).power = s.power := rfl
@[simp] theorem modFabric_nv : (s.modFabric g).nv = s.nv := rfl
@[simp] theorem modFabric_boot : (s.modFabric g).boot = s.boot := rfl
@[simp] theorem modFabric_sec : (s.modFabric g).sec = s.sec := rfl
@[simp] theorem modFabric_spdm : (s.modFabric g).spdm = s.spdm := rfl
@[simp] theorem modFabric_eth : (s.modFabric g).eth = s.eth := rfl
@[simp] theorem modFabric_irq : (s.modFabric g).irq = s.irq := rfl
@[simp] theorem modFabric_readData : (s.modFabric g).readData = s.readData := rfl
@[simp] theorem modFabric_readValue : (s.modFabric g).readValue = s.readValue := rfl
@[simp] theorem modFabric_pending : (s.modFabric g).pending = s.pending := rfl
@[simp] theorem modFabric_freeCtr : (s.modFabric g).freeCtr = s.freeCtr := rfl
end

section
variable (q : PlaneId) (c : PairId) (m : MapEntry)
@[simp] theorem setMapEntry_part : (s.setMapEntry q c m).part = s.part := rfl
@[simp] theorem setMapEntry_tiles : (s.setMapEntry q c m).tiles = s.tiles := rfl
@[simp] theorem setMapEntry_l2p : (s.setMapEntry q c m).l2p = s.l2p := rfl
@[simp] theorem setMapEntry_meshOpen : (s.setMapEntry q c m).meshOpen = s.meshOpen := rfl
@[simp] theorem setMapEntry_mem : (s.setMapEntry q c m).mem = s.mem := rfl
@[simp] theorem setMapEntry_rawTotals : (s.setMapEntry q c m).rawTotals = s.rawTotals := rfl
@[simp] theorem setMapEntry_poisoned : (s.setMapEntry q c m).poisoned = s.poisoned := rfl
@[simp] theorem setMapEntry_ports : (s.setMapEntry q c m).ports = s.ports := rfl
@[simp] theorem setMapEntry_launch : (s.setMapEntry q c m).launch = s.launch := rfl
@[simp] theorem setMapEntry_job : (s.setMapEntry q c m).job = s.job := rfl
@[simp] theorem setMapEntry_hostTallies : (s.setMapEntry q c m).hostTallies = s.hostTallies := rfl
@[simp] theorem setMapEntry_light : (s.setMapEntry q c m).light = s.light := rfl
@[simp] theorem setMapEntry_steps : (s.setMapEntry q c m).steps = s.steps := rfl
@[simp] theorem setMapEntry_health : (s.setMapEntry q c m).health = s.health := rfl
@[simp] theorem setMapEntry_rtu : (s.setMapEntry q c m).rtu = s.rtu := rfl
@[simp] theorem setMapEntry_mesh : (s.setMapEntry q c m).mesh = s.mesh := rfl
@[simp] theorem setMapEntry_standby : (s.setMapEntry q c m).standby = s.standby := rfl
@[simp] theorem setMapEntry_power : (s.setMapEntry q c m).power = s.power := rfl
@[simp] theorem setMapEntry_nv : (s.setMapEntry q c m).nv = s.nv := rfl
@[simp] theorem setMapEntry_boot : (s.setMapEntry q c m).boot = s.boot := rfl
@[simp] theorem setMapEntry_sec : (s.setMapEntry q c m).sec = s.sec := rfl
@[simp] theorem setMapEntry_spdm : (s.setMapEntry q c m).spdm = s.spdm := rfl
@[simp] theorem setMapEntry_eth : (s.setMapEntry q c m).eth = s.eth := rfl
@[simp] theorem setMapEntry_irq : (s.setMapEntry q c m).irq = s.irq := rfl
@[simp] theorem setMapEntry_readData : (s.setMapEntry q c m).readData = s.readData := rfl
@[simp] theorem setMapEntry_readValue : (s.setMapEntry q c m).readValue = s.readValue := rfl
@[simp] theorem setMapEntry_pending : (s.setMapEntry q c m).pending = s.pending := rfl
@[simp] theorem setMapEntry_freeCtr : (s.setMapEntry q c m).freeCtr = s.freeCtr := rfl
end

section
variable (g : Mesh → Mesh)
@[simp] theorem modMesh_part : (s.modMesh g).part = s.part := rfl
@[simp] theorem modMesh_tiles : (s.modMesh g).tiles = s.tiles := rfl
@[simp] theorem modMesh_l2p : (s.modMesh g).l2p = s.l2p := rfl
@[simp] theorem modMesh_meshOpen : (s.modMesh g).meshOpen = s.meshOpen := rfl
@[simp] theorem modMesh_mem : (s.modMesh g).mem = s.mem := rfl
@[simp] theorem modMesh_rawTotals : (s.modMesh g).rawTotals = s.rawTotals := rfl
@[simp] theorem modMesh_poisoned : (s.modMesh g).poisoned = s.poisoned := rfl
@[simp] theorem modMesh_ports : (s.modMesh g).ports = s.ports := rfl
@[simp] theorem modMesh_launch : (s.modMesh g).launch = s.launch := rfl
@[simp] theorem modMesh_job : (s.modMesh g).job = s.job := rfl
@[simp] theorem modMesh_hostTallies : (s.modMesh g).hostTallies = s.hostTallies := rfl
@[simp] theorem modMesh_light : (s.modMesh g).light = s.light := rfl
@[simp] theorem modMesh_fabric : (s.modMesh g).fabric = s.fabric := rfl
@[simp] theorem modMesh_steps : (s.modMesh g).steps = s.steps := rfl
@[simp] theorem modMesh_health : (s.modMesh g).health = s.health := rfl
@[simp] theorem modMesh_rtu : (s.modMesh g).rtu = s.rtu := rfl
@[simp] theorem modMesh_mesh : (s.modMesh g).mesh = g s.mesh := rfl
@[simp] theorem modMesh_standby : (s.modMesh g).standby = s.standby := rfl
@[simp] theorem modMesh_power : (s.modMesh g).power = s.power := rfl
@[simp] theorem modMesh_nv : (s.modMesh g).nv = s.nv := rfl
@[simp] theorem modMesh_boot : (s.modMesh g).boot = s.boot := rfl
@[simp] theorem modMesh_sec : (s.modMesh g).sec = s.sec := rfl
@[simp] theorem modMesh_spdm : (s.modMesh g).spdm = s.spdm := rfl
@[simp] theorem modMesh_eth : (s.modMesh g).eth = s.eth := rfl
@[simp] theorem modMesh_irq : (s.modMesh g).irq = s.irq := rfl
@[simp] theorem modMesh_readData : (s.modMesh g).readData = s.readData := rfl
@[simp] theorem modMesh_readValue : (s.modMesh g).readValue = s.readValue := rfl
@[simp] theorem modMesh_pending : (s.modMesh g).pending = s.pending := rfl
@[simp] theorem modMesh_freeCtr : (s.modMesh g).freeCtr = s.freeCtr := rfl
end

section
variable (g : Sec → Sec)
@[simp] theorem modSec_part : (s.modSec g).part = s.part := rfl
@[simp] theorem modSec_tiles : (s.modSec g).tiles = s.tiles := rfl
@[simp] theorem modSec_l2p : (s.modSec g).l2p = s.l2p := rfl
@[simp] theorem modSec_meshOpen : (s.modSec g).meshOpen = s.meshOpen := rfl
@[simp] theorem modSec_mem : (s.modSec g).mem = s.mem := rfl
@[simp] theorem modSec_rawTotals : (s.modSec g).rawTotals = s.rawTotals := rfl
@[simp] theorem modSec_poisoned : (s.modSec g).poisoned = s.poisoned := rfl
@[simp] theorem modSec_ports : (s.modSec g).ports = s.ports := rfl
@[simp] theorem modSec_launch : (s.modSec g).launch = s.launch := rfl
@[simp] theorem modSec_job : (s.modSec g).job = s.job := rfl
@[simp] theorem modSec_hostTallies : (s.modSec g).hostTallies = s.hostTallies := rfl
@[simp] theorem modSec_light : (s.modSec g).light = s.light := rfl
@[simp] theorem modSec_fabric : (s.modSec g).fabric = s.fabric := rfl
@[simp] theorem modSec_steps : (s.modSec g).steps = s.steps := rfl
@[simp] theorem modSec_health : (s.modSec g).health = s.health := rfl
@[simp] theorem modSec_rtu : (s.modSec g).rtu = s.rtu := rfl
@[simp] theorem modSec_mesh : (s.modSec g).mesh = s.mesh := rfl
@[simp] theorem modSec_standby : (s.modSec g).standby = s.standby := rfl
@[simp] theorem modSec_power : (s.modSec g).power = s.power := rfl
@[simp] theorem modSec_nv : (s.modSec g).nv = s.nv := rfl
@[simp] theorem modSec_boot : (s.modSec g).boot = s.boot := rfl
@[simp] theorem modSec_sec : (s.modSec g).sec = g s.sec := rfl
@[simp] theorem modSec_spdm : (s.modSec g).spdm = s.spdm := rfl
@[simp] theorem modSec_eth : (s.modSec g).eth = s.eth := rfl
@[simp] theorem modSec_irq : (s.modSec g).irq = s.irq := rfl
@[simp] theorem modSec_readData : (s.modSec g).readData = s.readData := rfl
@[simp] theorem modSec_readValue : (s.modSec g).readValue = s.readValue := rfl
@[simp] theorem modSec_pending : (s.modSec g).pending = s.pending := rfl
@[simp] theorem modSec_freeCtr : (s.modSec g).freeCtr = s.freeCtr := rfl
end

section
variable (g : Standby → Standby)
@[simp] theorem modStandby_part : (s.modStandby g).part = s.part := rfl
@[simp] theorem modStandby_tiles : (s.modStandby g).tiles = s.tiles := rfl
@[simp] theorem modStandby_l2p : (s.modStandby g).l2p = s.l2p := rfl
@[simp] theorem modStandby_meshOpen : (s.modStandby g).meshOpen = s.meshOpen := rfl
@[simp] theorem modStandby_mem : (s.modStandby g).mem = s.mem := rfl
@[simp] theorem modStandby_rawTotals : (s.modStandby g).rawTotals = s.rawTotals := rfl
@[simp] theorem modStandby_poisoned : (s.modStandby g).poisoned = s.poisoned := rfl
@[simp] theorem modStandby_ports : (s.modStandby g).ports = s.ports := rfl
@[simp] theorem modStandby_launch : (s.modStandby g).launch = s.launch := rfl
@[simp] theorem modStandby_job : (s.modStandby g).job = s.job := rfl
@[simp] theorem modStandby_hostTallies : (s.modStandby g).hostTallies = s.hostTallies := rfl
@[simp] theorem modStandby_light : (s.modStandby g).light = s.light := rfl
@[simp] theorem modStandby_fabric : (s.modStandby g).fabric = s.fabric := rfl
@[simp] theorem modStandby_steps : (s.modStandby g).steps = s.steps := rfl
@[simp] theorem modStandby_health : (s.modStandby g).health = s.health := rfl
@[simp] theorem modStandby_rtu : (s.modStandby g).rtu = s.rtu := rfl
@[simp] theorem modStandby_mesh : (s.modStandby g).mesh = s.mesh := rfl
@[simp] theorem modStandby_standby : (s.modStandby g).standby = g s.standby := rfl
@[simp] theorem modStandby_power : (s.modStandby g).power = s.power := rfl
@[simp] theorem modStandby_nv : (s.modStandby g).nv = s.nv := rfl
@[simp] theorem modStandby_boot : (s.modStandby g).boot = s.boot := rfl
@[simp] theorem modStandby_sec : (s.modStandby g).sec = s.sec := rfl
@[simp] theorem modStandby_spdm : (s.modStandby g).spdm = s.spdm := rfl
@[simp] theorem modStandby_eth : (s.modStandby g).eth = s.eth := rfl
@[simp] theorem modStandby_irq : (s.modStandby g).irq = s.irq := rfl
@[simp] theorem modStandby_readData : (s.modStandby g).readData = s.readData := rfl
@[simp] theorem modStandby_readValue : (s.modStandby g).readValue = s.readValue := rfl
@[simp] theorem modStandby_pending : (s.modStandby g).pending = s.pending := rfl
@[simp] theorem modStandby_freeCtr : (s.modStandby g).freeCtr = s.freeCtr := rfl
end

section
variable (g : Power → Power)
@[simp] theorem modPower_part : (s.modPower g).part = s.part := rfl
@[simp] theorem modPower_tiles : (s.modPower g).tiles = s.tiles := rfl
@[simp] theorem modPower_l2p : (s.modPower g).l2p = s.l2p := rfl
@[simp] theorem modPower_meshOpen : (s.modPower g).meshOpen = s.meshOpen := rfl
@[simp] theorem modPower_mem : (s.modPower g).mem = s.mem := rfl
@[simp] theorem modPower_rawTotals : (s.modPower g).rawTotals = s.rawTotals := rfl
@[simp] theorem modPower_poisoned : (s.modPower g).poisoned = s.poisoned := rfl
@[simp] theorem modPower_ports : (s.modPower g).ports = s.ports := rfl
@[simp] theorem modPower_launch : (s.modPower g).launch = s.launch := rfl
@[simp] theorem modPower_job : (s.modPower g).job = s.job := rfl
@[simp] theorem modPower_hostTallies : (s.modPower g).hostTallies = s.hostTallies := rfl
@[simp] theorem modPower_light : (s.modPower g).light = s.light := rfl
@[simp] theorem modPower_fabric : (s.modPower g).fabric = s.fabric := rfl
@[simp] theorem modPower_steps : (s.modPower g).steps = s.steps := rfl
@[simp] theorem modPower_health : (s.modPower g).health = s.health := rfl
@[simp] theorem modPower_rtu : (s.modPower g).rtu = s.rtu := rfl
@[simp] theorem modPower_mesh : (s.modPower g).mesh = s.mesh := rfl
@[simp] theorem modPower_standby : (s.modPower g).standby = s.standby := rfl
@[simp] theorem modPower_power : (s.modPower g).power = g s.power := rfl
@[simp] theorem modPower_nv : (s.modPower g).nv = s.nv := rfl
@[simp] theorem modPower_boot : (s.modPower g).boot = s.boot := rfl
@[simp] theorem modPower_sec : (s.modPower g).sec = s.sec := rfl
@[simp] theorem modPower_spdm : (s.modPower g).spdm = s.spdm := rfl
@[simp] theorem modPower_eth : (s.modPower g).eth = s.eth := rfl
@[simp] theorem modPower_irq : (s.modPower g).irq = s.irq := rfl
@[simp] theorem modPower_readData : (s.modPower g).readData = s.readData := rfl
@[simp] theorem modPower_readValue : (s.modPower g).readValue = s.readValue := rfl
@[simp] theorem modPower_pending : (s.modPower g).pending = s.pending := rfl
@[simp] theorem modPower_freeCtr : (s.modPower g).freeCtr = s.freeCtr := rfl
end

section
variable (g : Steps → Steps)
@[simp] theorem stepsMod_part : (s.stepsMod g).part = s.part := rfl
@[simp] theorem stepsMod_tiles : (s.stepsMod g).tiles = s.tiles := rfl
@[simp] theorem stepsMod_l2p : (s.stepsMod g).l2p = s.l2p := rfl
@[simp] theorem stepsMod_meshOpen : (s.stepsMod g).meshOpen = s.meshOpen := rfl
@[simp] theorem stepsMod_mem : (s.stepsMod g).mem = s.mem := rfl
@[simp] theorem stepsMod_rawTotals : (s.stepsMod g).rawTotals = s.rawTotals := rfl
@[simp] theorem stepsMod_poisoned : (s.stepsMod g).poisoned = s.poisoned := rfl
@[simp] theorem stepsMod_ports : (s.stepsMod g).ports = s.ports := rfl
@[simp] theorem stepsMod_launch : (s.stepsMod g).launch = s.launch := rfl
@[simp] theorem stepsMod_job : (s.stepsMod g).job = s.job := rfl
@[simp] theorem stepsMod_hostTallies : (s.stepsMod g).hostTallies = s.hostTallies := rfl
@[simp] theorem stepsMod_light : (s.stepsMod g).light = s.light := rfl
@[simp] theorem stepsMod_fabric : (s.stepsMod g).fabric = s.fabric := rfl
@[simp] theorem stepsMod_steps : (s.stepsMod g).steps = g s.steps := rfl
@[simp] theorem stepsMod_health : (s.stepsMod g).health = s.health := rfl
@[simp] theorem stepsMod_rtu : (s.stepsMod g).rtu = s.rtu := rfl
@[simp] theorem stepsMod_mesh : (s.stepsMod g).mesh = s.mesh := rfl
@[simp] theorem stepsMod_standby : (s.stepsMod g).standby = s.standby := rfl
@[simp] theorem stepsMod_power : (s.stepsMod g).power = s.power := rfl
@[simp] theorem stepsMod_nv : (s.stepsMod g).nv = s.nv := rfl
@[simp] theorem stepsMod_boot : (s.stepsMod g).boot = s.boot := rfl
@[simp] theorem stepsMod_sec : (s.stepsMod g).sec = s.sec := rfl
@[simp] theorem stepsMod_spdm : (s.stepsMod g).spdm = s.spdm := rfl
@[simp] theorem stepsMod_eth : (s.stepsMod g).eth = s.eth := rfl
@[simp] theorem stepsMod_irq : (s.stepsMod g).irq = s.irq := rfl
@[simp] theorem stepsMod_readData : (s.stepsMod g).readData = s.readData := rfl
@[simp] theorem stepsMod_readValue : (s.stepsMod g).readValue = s.readValue := rfl
@[simp] theorem stepsMod_pending : (s.stepsMod g).pending = s.pending := rfl
@[simp] theorem stepsMod_freeCtr : (s.stepsMod g).freeCtr = s.freeCtr := rfl
end

section
variable (q : PlaneId) (c : PairId) (x : Pair)
@[simp] theorem setPair_part : (s.setPair q c x).part = s.part := rfl
@[simp] theorem setPair_tiles : (s.setPair q c x).tiles = s.tiles := rfl
@[simp] theorem setPair_l2p : (s.setPair q c x).l2p = s.l2p := rfl
@[simp] theorem setPair_meshOpen : (s.setPair q c x).meshOpen = s.meshOpen := rfl
@[simp] theorem setPair_mem : (s.setPair q c x).mem = s.mem := rfl
@[simp] theorem setPair_rawTotals : (s.setPair q c x).rawTotals = s.rawTotals := rfl
@[simp] theorem setPair_poisoned : (s.setPair q c x).poisoned = s.poisoned := rfl
@[simp] theorem setPair_ports : (s.setPair q c x).ports = s.ports := rfl
@[simp] theorem setPair_launch : (s.setPair q c x).launch = s.launch := rfl
@[simp] theorem setPair_job : (s.setPair q c x).job = s.job := rfl
@[simp] theorem setPair_hostTallies : (s.setPair q c x).hostTallies = s.hostTallies := rfl
@[simp] theorem setPair_fabric : (s.setPair q c x).fabric = s.fabric := rfl
@[simp] theorem setPair_steps : (s.setPair q c x).steps = s.steps := rfl
@[simp] theorem setPair_health : (s.setPair q c x).health = s.health := rfl
@[simp] theorem setPair_rtu : (s.setPair q c x).rtu = s.rtu := rfl
@[simp] theorem setPair_mesh : (s.setPair q c x).mesh = s.mesh := rfl
@[simp] theorem setPair_standby : (s.setPair q c x).standby = s.standby := rfl
@[simp] theorem setPair_power : (s.setPair q c x).power = s.power := rfl
@[simp] theorem setPair_nv : (s.setPair q c x).nv = s.nv := rfl
@[simp] theorem setPair_boot : (s.setPair q c x).boot = s.boot := rfl
@[simp] theorem setPair_sec : (s.setPair q c x).sec = s.sec := rfl
@[simp] theorem setPair_spdm : (s.setPair q c x).spdm = s.spdm := rfl
@[simp] theorem setPair_eth : (s.setPair q c x).eth = s.eth := rfl
@[simp] theorem setPair_irq : (s.setPair q c x).irq = s.irq := rfl
@[simp] theorem setPair_readData : (s.setPair q c x).readData = s.readData := rfl
@[simp] theorem setPair_readValue : (s.setPair q c x).readValue = s.readValue := rfl
@[simp] theorem setPair_pending : (s.setPair q c x).pending = s.pending := rfl
@[simp] theorem setPair_freeCtr : (s.setPair q c x).freeCtr = s.freeCtr := rfl
end

section
variable (q : PlaneId) (c : PairId) (g : Pair → Pair)
@[simp] theorem modPair_part : (s.modPair q c g).part = s.part := rfl
@[simp] theorem modPair_tiles : (s.modPair q c g).tiles = s.tiles := rfl
@[simp] theorem modPair_l2p : (s.modPair q c g).l2p = s.l2p := rfl
@[simp] theorem modPair_meshOpen : (s.modPair q c g).meshOpen = s.meshOpen := rfl
@[simp] theorem modPair_mem : (s.modPair q c g).mem = s.mem := rfl
@[simp] theorem modPair_rawTotals : (s.modPair q c g).rawTotals = s.rawTotals := rfl
@[simp] theorem modPair_poisoned : (s.modPair q c g).poisoned = s.poisoned := rfl
@[simp] theorem modPair_ports : (s.modPair q c g).ports = s.ports := rfl
@[simp] theorem modPair_launch : (s.modPair q c g).launch = s.launch := rfl
@[simp] theorem modPair_job : (s.modPair q c g).job = s.job := rfl
@[simp] theorem modPair_hostTallies : (s.modPair q c g).hostTallies = s.hostTallies := rfl
@[simp] theorem modPair_fabric : (s.modPair q c g).fabric = s.fabric := rfl
@[simp] theorem modPair_steps : (s.modPair q c g).steps = s.steps := rfl
@[simp] theorem modPair_health : (s.modPair q c g).health = s.health := rfl
@[simp] theorem modPair_rtu : (s.modPair q c g).rtu = s.rtu := rfl
@[simp] theorem modPair_mesh : (s.modPair q c g).mesh = s.mesh := rfl
@[simp] theorem modPair_standby : (s.modPair q c g).standby = s.standby := rfl
@[simp] theorem modPair_power : (s.modPair q c g).power = s.power := rfl
@[simp] theorem modPair_nv : (s.modPair q c g).nv = s.nv := rfl
@[simp] theorem modPair_boot : (s.modPair q c g).boot = s.boot := rfl
@[simp] theorem modPair_sec : (s.modPair q c g).sec = s.sec := rfl
@[simp] theorem modPair_spdm : (s.modPair q c g).spdm = s.spdm := rfl
@[simp] theorem modPair_eth : (s.modPair q c g).eth = s.eth := rfl
@[simp] theorem modPair_irq : (s.modPair q c g).irq = s.irq := rfl
@[simp] theorem modPair_readData : (s.modPair q c g).readData = s.readData := rfl
@[simp] theorem modPair_readValue : (s.modPair q c g).readValue = s.readValue := rfl
@[simp] theorem modPair_pending : (s.modPair q c g).pending = s.pending := rfl
@[simp] theorem modPair_freeCtr : (s.modPair q c g).freeCtr = s.freeCtr := rfl
end

section
variable (q : PlaneId) (g : Plane → Plane)
@[simp] theorem modPlane_part : (s.modPlane q g).part = s.part := rfl
@[simp] theorem modPlane_tiles : (s.modPlane q g).tiles = s.tiles := rfl
@[simp] theorem modPlane_l2p : (s.modPlane q g).l2p = s.l2p := rfl
@[simp] theorem modPlane_meshOpen : (s.modPlane q g).meshOpen = s.meshOpen := rfl
@[simp] theorem modPlane_mem : (s.modPlane q g).mem = s.mem := rfl
@[simp] theorem modPlane_rawTotals : (s.modPlane q g).rawTotals = s.rawTotals := rfl
@[simp] theorem modPlane_poisoned : (s.modPlane q g).poisoned = s.poisoned := rfl
@[simp] theorem modPlane_ports : (s.modPlane q g).ports = s.ports := rfl
@[simp] theorem modPlane_launch : (s.modPlane q g).launch = s.launch := rfl
@[simp] theorem modPlane_job : (s.modPlane q g).job = s.job := rfl
@[simp] theorem modPlane_hostTallies : (s.modPlane q g).hostTallies = s.hostTallies := rfl
@[simp] theorem modPlane_fabric : (s.modPlane q g).fabric = s.fabric := rfl
@[simp] theorem modPlane_steps : (s.modPlane q g).steps = s.steps := rfl
@[simp] theorem modPlane_health : (s.modPlane q g).health = s.health := rfl
@[simp] theorem modPlane_rtu : (s.modPlane q g).rtu = s.rtu := rfl
@[simp] theorem modPlane_mesh : (s.modPlane q g).mesh = s.mesh := rfl
@[simp] theorem modPlane_standby : (s.modPlane q g).standby = s.standby := rfl
@[simp] theorem modPlane_power : (s.modPlane q g).power = s.power := rfl
@[simp] theorem modPlane_nv : (s.modPlane q g).nv = s.nv := rfl
@[simp] theorem modPlane_boot : (s.modPlane q g).boot = s.boot := rfl
@[simp] theorem modPlane_sec : (s.modPlane q g).sec = s.sec := rfl
@[simp] theorem modPlane_spdm : (s.modPlane q g).spdm = s.spdm := rfl
@[simp] theorem modPlane_eth : (s.modPlane q g).eth = s.eth := rfl
@[simp] theorem modPlane_irq : (s.modPlane q g).irq = s.irq := rfl
@[simp] theorem modPlane_readData : (s.modPlane q g).readData = s.readData := rfl
@[simp] theorem modPlane_readValue : (s.modPlane q g).readValue = s.readValue := rfl
@[simp] theorem modPlane_pending : (s.modPlane q g).pending = s.pending := rfl
@[simp] theorem modPlane_freeCtr : (s.modPlane q g).freeCtr = s.freeCtr := rfl
end

section
variable (g : Combs → Combs)
@[simp] theorem modCombs_part : (s.modCombs g).part = s.part := rfl
@[simp] theorem modCombs_tiles : (s.modCombs g).tiles = s.tiles := rfl
@[simp] theorem modCombs_l2p : (s.modCombs g).l2p = s.l2p := rfl
@[simp] theorem modCombs_meshOpen : (s.modCombs g).meshOpen = s.meshOpen := rfl
@[simp] theorem modCombs_mem : (s.modCombs g).mem = s.mem := rfl
@[simp] theorem modCombs_rawTotals : (s.modCombs g).rawTotals = s.rawTotals := rfl
@[simp] theorem modCombs_poisoned : (s.modCombs g).poisoned = s.poisoned := rfl
@[simp] theorem modCombs_ports : (s.modCombs g).ports = s.ports := rfl
@[simp] theorem modCombs_launch : (s.modCombs g).launch = s.launch := rfl
@[simp] theorem modCombs_job : (s.modCombs g).job = s.job := rfl
@[simp] theorem modCombs_hostTallies : (s.modCombs g).hostTallies = s.hostTallies := rfl
@[simp] theorem modCombs_fabric : (s.modCombs g).fabric = s.fabric := rfl
@[simp] theorem modCombs_steps : (s.modCombs g).steps = s.steps := rfl
@[simp] theorem modCombs_health : (s.modCombs g).health = s.health := rfl
@[simp] theorem modCombs_rtu : (s.modCombs g).rtu = s.rtu := rfl
@[simp] theorem modCombs_mesh : (s.modCombs g).mesh = s.mesh := rfl
@[simp] theorem modCombs_standby : (s.modCombs g).standby = s.standby := rfl
@[simp] theorem modCombs_power : (s.modCombs g).power = s.power := rfl
@[simp] theorem modCombs_nv : (s.modCombs g).nv = s.nv := rfl
@[simp] theorem modCombs_boot : (s.modCombs g).boot = s.boot := rfl
@[simp] theorem modCombs_sec : (s.modCombs g).sec = s.sec := rfl
@[simp] theorem modCombs_spdm : (s.modCombs g).spdm = s.spdm := rfl
@[simp] theorem modCombs_eth : (s.modCombs g).eth = s.eth := rfl
@[simp] theorem modCombs_irq : (s.modCombs g).irq = s.irq := rfl
@[simp] theorem modCombs_readData : (s.modCombs g).readData = s.readData := rfl
@[simp] theorem modCombs_readValue : (s.modCombs g).readValue = s.readValue := rfl
@[simp] theorem modCombs_pending : (s.modCombs g).pending = s.pending := rfl
@[simp] theorem modCombs_freeCtr : (s.modCombs g).freeCtr = s.freeCtr := rfl
end

section
@[simp] theorem settleIrq_part : (s.settleIrq).part = s.part := rfl
@[simp] theorem settleIrq_tiles : (s.settleIrq).tiles = s.tiles := rfl
@[simp] theorem settleIrq_l2p : (s.settleIrq).l2p = s.l2p := rfl
@[simp] theorem settleIrq_meshOpen : (s.settleIrq).meshOpen = s.meshOpen := rfl
@[simp] theorem settleIrq_mem : (s.settleIrq).mem = s.mem := rfl
@[simp] theorem settleIrq_rawTotals : (s.settleIrq).rawTotals = s.rawTotals := rfl
@[simp] theorem settleIrq_poisoned : (s.settleIrq).poisoned = s.poisoned := rfl
@[simp] theorem settleIrq_ports : (s.settleIrq).ports = s.ports := rfl
@[simp] theorem settleIrq_launch : (s.settleIrq).launch = s.launch := rfl
@[simp] theorem settleIrq_job : (s.settleIrq).job = s.job := rfl
@[simp] theorem settleIrq_hostTallies : (s.settleIrq).hostTallies = s.hostTallies := rfl
@[simp] theorem settleIrq_light : (s.settleIrq).light = s.light := rfl
@[simp] theorem settleIrq_fabric : (s.settleIrq).fabric = s.fabric := rfl
@[simp] theorem settleIrq_steps : (s.settleIrq).steps = s.steps := rfl
@[simp] theorem settleIrq_health : (s.settleIrq).health = s.health := rfl
@[simp] theorem settleIrq_rtu : (s.settleIrq).rtu = s.rtu := rfl
@[simp] theorem settleIrq_mesh : (s.settleIrq).mesh = s.mesh := rfl
@[simp] theorem settleIrq_standby : (s.settleIrq).standby = s.standby := rfl
@[simp] theorem settleIrq_power : (s.settleIrq).power = s.power := rfl
@[simp] theorem settleIrq_nv : (s.settleIrq).nv = s.nv := rfl
@[simp] theorem settleIrq_boot : (s.settleIrq).boot = s.boot := rfl
@[simp] theorem settleIrq_sec : (s.settleIrq).sec = s.sec := rfl
@[simp] theorem settleIrq_spdm : (s.settleIrq).spdm = s.spdm := rfl
@[simp] theorem settleIrq_eth : (s.settleIrq).eth = s.eth := rfl
@[simp] theorem settleIrq_readData : (s.settleIrq).readData = s.readData := rfl
@[simp] theorem settleIrq_readValue : (s.settleIrq).readValue = s.readValue := rfl
@[simp] theorem settleIrq_pending : (s.settleIrq).pending = s.pending := rfl
@[simp] theorem settleIrq_freeCtr : (s.settleIrq).freeCtr = s.freeCtr := rfl
end

section
variable (p : EthId) (g : EthPort → EthPort)
@[simp] theorem modEth_part : (s.modEth p g).part = s.part := rfl
@[simp] theorem modEth_tiles : (s.modEth p g).tiles = s.tiles := rfl
@[simp] theorem modEth_l2p : (s.modEth p g).l2p = s.l2p := rfl
@[simp] theorem modEth_meshOpen : (s.modEth p g).meshOpen = s.meshOpen := rfl
@[simp] theorem modEth_mem : (s.modEth p g).mem = s.mem := rfl
@[simp] theorem modEth_rawTotals : (s.modEth p g).rawTotals = s.rawTotals := rfl
@[simp] theorem modEth_poisoned : (s.modEth p g).poisoned = s.poisoned := rfl
@[simp] theorem modEth_ports : (s.modEth p g).ports = s.ports := rfl
@[simp] theorem modEth_launch : (s.modEth p g).launch = s.launch := rfl
@[simp] theorem modEth_job : (s.modEth p g).job = s.job := rfl
@[simp] theorem modEth_hostTallies : (s.modEth p g).hostTallies = s.hostTallies := rfl
@[simp] theorem modEth_light : (s.modEth p g).light = s.light := rfl
@[simp] theorem modEth_fabric : (s.modEth p g).fabric = s.fabric := rfl
@[simp] theorem modEth_steps : (s.modEth p g).steps = s.steps := rfl
@[simp] theorem modEth_health : (s.modEth p g).health = s.health := rfl
@[simp] theorem modEth_rtu : (s.modEth p g).rtu = s.rtu := rfl
@[simp] theorem modEth_mesh : (s.modEth p g).mesh = s.mesh := rfl
@[simp] theorem modEth_standby : (s.modEth p g).standby = s.standby := rfl
@[simp] theorem modEth_power : (s.modEth p g).power = s.power := rfl
@[simp] theorem modEth_nv : (s.modEth p g).nv = s.nv := rfl
@[simp] theorem modEth_boot : (s.modEth p g).boot = s.boot := rfl
@[simp] theorem modEth_sec : (s.modEth p g).sec = s.sec := rfl
@[simp] theorem modEth_spdm : (s.modEth p g).spdm = s.spdm := rfl
@[simp] theorem modEth_irq : (s.modEth p g).irq = s.irq := rfl
@[simp] theorem modEth_readData : (s.modEth p g).readData = s.readData := rfl
@[simp] theorem modEth_readValue : (s.modEth p g).readValue = s.readValue := rfl
@[simp] theorem modEth_pending : (s.modEth p g).pending = s.pending := rfl
@[simp] theorem modEth_freeCtr : (s.modEth p g).freeCtr = s.freeCtr := rfl
end

end Sys2Proof.Machine.State
end

