-- ==== Sys2Proof/Laws/Ops.lean ====
section
/-!
SUPPORT. What the shared operations do, once for each: the tile map, bytes of memory, and the issue of a tile instruction.
-/
namespace Sys2Proof.Machine

/-! ### The tile map -/

theorem State.tile_setTile {s : State} (w : Sparse.wf Tile.reset s.tiles = true) (p q : TileId) (t : Tile) :
    (s.setTile p t).tile q = if q = p then t else s.tile q := by
  unfold State.tile State.setTile
  rw [Sparse.get_set w]
  by_cases h : q = p
  · simp [h]
  · have : q.1 ≠ p.1 := fun e => h (Fin.ext e)
    simp [h, this]

theorem State.setTile_setTile {s : State} (w : Sparse.wf Tile.reset s.tiles = true) (p : TileId) (t u : Tile) :
    (s.setTile p t).setTile p u = s.setTile p u := by
  unfold State.setTile
  simp only [Sparse.set_set w]

theorem State.setTile_tiles_wf {s : State} (w : Sparse.wf Tile.reset s.tiles = true) (p : TileId) (t : Tile) :
    Sparse.wf Tile.reset (s.setTile p t).tiles = true := Sparse.wf_set w p.1 t

/-- Two updates of one tile in a row are one. -/
theorem State.modTile_modTile {s : State} (w : Sparse.wf Tile.reset s.tiles = true) (p : TileId) (f g : Tile → Tile) :
    (s.modTile p f).modTile p g = s.setTile p (g (f (s.tile p))) := by
  unfold State.modTile
  rw [State.setTile_setTile w, State.tile_setTile w, if_pos rfl]

/-- The effect of an instruction that only updates its tile. -/
theorem State.thenTile_advance {s : State} (w : Sparse.wf Tile.reset s.tiles = true) (p : TileId) (n : Nat) (wc : Bool)
    (f : Tile → Tile) : (s.advance p n wc).thenTile p f = s.setTile p (f ((s.tile p).advance n wc)) :=
  State.modTile_modTile w p _ f

/-! ### Bytes of memory -/

@[simp] theorem State.peek_wr {s : State} (w : s.memWf = true) (a b : Nat) (x : Byte) :
    (s.wr a x).peek b = if b = a then x else s.peek b := Sparse.get_set w a b x

theorem State.wr_memWf {s : State} (w : s.memWf = true) (a : Nat) (x : Byte) : (s.wr a x).memWf = true :=
  Sparse.wf_set w a x

theorem State.clearPoison_eq (s : State) (c : Nat → Bool) :
    s.clearPoison c = { s with poisoned := (s.clearPoison c).poisoned } := rfl

/-- A list of byte writes: memory alone changes, it keeps its form, and a byte that no write names reads as before. -/
theorem State.foldl_wr {β : Type} (key : β → Nat) (val : β → Byte) (l : List β) (s : State) (w : s.memWf = true) :
    let t := l.foldl (fun s x => s.wr (key x) (val x)) s
    t = { s with mem := t.mem } ∧ t.memWf = true ∧ ∀ a, a ∉ l.map key → t.peek a = s.peek a := by
  induction l generalizing s with
  | nil => exact ⟨rfl, w, fun _ _ => rfl⟩
  | cons x l ih =>
    obtain ⟨h1, h2, h3⟩ := ih (s.wr (key x) (val x)) (s.wr_memWf w _ _)
    refine ⟨?_, h2, fun a ha => ?_⟩
    · simp only [List.foldl_cons]
      rw [h1]
      rfl
    · simp only [List.foldl_cons]
      simp only [List.map_cons, List.mem_cons, not_or] at ha
      rw [h3 a ha.2, State.peek_wr w, if_neg ha.1]

/-! ### Issue -/

theorem State.looksAt.run {s : State} {x : TileOp} (h : s.looksAt x) :
    s.run x = match x.checks.find? fun c => c.bad && !(c.late && (s.tile x.p).mustWait x) with
      | some c => .next (s.checkFault x.p c x.word)
      | none =>
        if x.held || s.queueFull x then .next s
        else if (s.tile x.p).mustWait x then .next (s.enqueue x)
        else .next (s.nameHwFault (x.effect (s.advance x.p x.len x.wc)) x) := by
  obtain ⟨h1, h2, h3⟩ := h
  have h3' : x.reads.any (s.tile x.p).isPending = false := by
    simpa using h3
  simp [State.run, h1, h2, h3']
  try rfl

/-- No check fails, whether it is made now or as the instruction starts. -/
theorem TileOp.find_none {x : TileOp} (h : ∀ c ∈ x.checks, c.bad = false) (b : Bool) :
    x.checks.find? (fun c => c.bad && !(c.late && b)) = none := by
  rw [List.find?_eq_none]
  intro c hc
  simp [h c hc]

/-- An instruction that can wait in no queue finds no queue in its way. -/
@[simp] theorem State.queueFull_make (s : State) (p w n r c h wc e) :
    s.queueFull (TileOp.make p w n r c h wc e none) = false := rfl

@[simp] theorem Tile.mustWait_make (t : Tile) (p w n r c h wc e) :
    t.mustWait (TileOp.make p w n r c h wc e none) = false := rfl

/-- The queues of an SMEM instruction. -/
@[simp] theorem State.queueFull_inSmem (s : State) (x : TileOp) (i : Instr) (d : Option (BitVec 5)) (b : Bool) :
    s.queueFull (x.inSmem i d b) = (s.tile x.p).smemFull := rfl

@[simp] theorem Tile.mustWait_inSmem (t : Tile) (x : TileOp) (i : Instr) (d : Option (BitVec 5)) (b : Bool) :
    t.mustWait (x.inSmem i d b) = (b || t.waiting.any fun w => w.port == false) := rfl

/-- The queues of a PORT instruction. -/
@[simp] theorem State.queueFull_inPort (s : State) (x : TileOp) (i : Instr) (d : Option (BitVec 5)) (b : Bool) :
    s.queueFull (x.inPort i d b) = s.portFull x.p := rfl

@[simp] theorem Tile.mustWait_inPort (t : Tile) (x : TileOp) (i : Instr) (d : Option (BitVec 5)) (b : Bool) :
    t.mustWait (x.inPort i d b) = (b || t.waiting.any fun w => w.port == true) := rfl

/-- What waits in a queue is the instruction itself. -/
theorem tileOp_entry {i : Instr} {s : State} {x : TileOp} (h : tileOp i s = some x) {e : Entry} (he : x.entry = some e) :
    e.instr = i := by
  cases i <;> simp only [tileOp, Option.some.injEq, reduceCtorEq] at h <;> subst h <;> cases he <;> rfl

/-- A ready SMEM queue is not full, and an access that nothing else stalls starts at once. -/
theorem Tile.smemReady.starts {t : Tile} (h : t.smemReady) :
    t.smemStalled = false ∧ t.smemFull = false ∧ (t.waiting.any fun w => w.port == false) = false := by
  obtain ⟨h1, h2, h3⟩ := h
  refine ⟨h1, h2, ?_⟩
  rw [List.any_eq_false]
  intro w hw
  simp [h3 w hw]

/-- The same of a ready PORT queue. -/
theorem State.portReady.starts {s : State} {p : TileId} (h : s.portReady p) :
    s.portStalled p = false ∧ s.portFull p = false ∧ ((s.tile p).waiting.any fun w => w.port == true) = false := by
  obtain ⟨h1, h2, h3⟩ := h
  refine ⟨h1, h2, ?_⟩
  rw [List.any_eq_false]
  intro w hw
  simp [h3 w hw]

/-- An instruction that issues advances the sequencer and has its effect. -/
theorem State.issues.run {s : State} {x : TileOp} (h : s.issues x) :
    s.run x = .next (s.nameHwFault (x.effect (s.advance x.p x.len x.wc)) x) := by
  obtain ⟨h1, h2, h3, h4, h5⟩ := h
  rw [h1.run, TileOp.find_none h2]
  simp [h3, h4, h5]

/-- A record that the effect leaves as it was, or not as a valid hardware fault, is not named again. -/
theorem State.nameHwFault_of {s t : State} {x : TileOp}
    (h : (t.tile x.p).fault = (s.tile x.p).fault ∨ (t.tile x.p).fault.valid = false ∨ (t.tile x.p).fault.hardware = false) :
    s.nameHwFault t x = t := by
  unfold State.nameHwFault
  rcases h with h | h | h
  · cases hv : (s.tile x.p).fault.valid <;> simp [h, hv]
  · simp [h]
  · simp [h]

/-- An instruction that issues and leaves its tile's fault record: its effect on the advanced state is the whole of it. -/
theorem State.issues.run_same {s : State} {x : TileOp} (h : s.issues x)
    (hf : ((x.effect (s.advance x.p x.len x.wc)).tile x.p).fault = (s.tile x.p).fault) :
    s.run x = .next (x.effect (s.advance x.p x.len x.wc)) := by
  rw [h.run, State.nameHwFault_of (.inl hf)]

/-- Naming a fault changes nothing but the tile map. -/
theorem State.nameHwFault_eq (s t : State) (x : TileOp) : s.nameHwFault t x = { t with tiles := (s.nameHwFault t x).tiles } := by
  unfold State.nameHwFault
  simp only
  split <;> rfl

/-- The first failing check is the fault of the instruction, those of memory only where it starts as it issues. -/
theorem State.looksAt.run_fault {s : State} {x : TileOp} (h : s.looksAt x) {c : Check}
    (hc : x.checks.find? (fun c => c.bad && !(c.late && (s.tile x.p).mustWait x)) = some c) :
    s.run x = .next (s.checkFault x.p c x.word) := by
  rw [h.run, hc]

/-- An instruction that need not wait makes every check as it issues. -/
theorem State.looksAt.run_fault_now {s : State} {x : TileOp} (h : s.looksAt x) (hw : (s.tile x.p).mustWait x = false) {c : Check}
    (hc : x.checks.find? (·.bad) = some c) : s.run x = .next (s.checkFault x.p c x.word) := by
  refine h.run_fault ?_
  simpa [hw] using hc

/-- An instruction that its queue keeps from starting enters it. -/
theorem State.looksAt.run_waits {s : State} {x : TileOp} (h : s.looksAt x) (hc : ∀ c ∈ x.checks, c.bad = true → c.late = true)
    (hh : x.held = false) (hq : s.queueFull x = false) (hw : (s.tile x.p).mustWait x = true) : s.run x = .next (s.enqueue x) := by
  have hf : x.checks.find? (fun c => c.bad && !(c.late && (s.tile x.p).mustWait x)) = none := by
    rw [List.find?_eq_none]
    intro c hm
    cases hb : c.bad <;> simp [hw]
    simpa using hc c hm hb
  rw [h.run, hf]
  simp [hh, hq, hw]

/-- What the sequencer holds has no effect. -/
theorem State.looksAt.run_held {s : State} {x : TileOp} (h : s.looksAt x) (hc : ∀ c ∈ x.checks, c.bad = false)
    (hh : x.held = true ∨ s.queueFull x = true) : s.run x = .next s := by
  rw [h.run, TileOp.find_none hc]
  simp [hh]

/-- A program fault outside the descriptor and routing causes is recorded in TLE_FAULT alone. -/
theorem State.checkFault_of_lt (s : State) (p : TileId) {c : Check} (w : W64) (h : c.cause.toNat < 0x40) :
    s.checkFault p c w = s.programFault p c.cause w := by
  unfold State.checkFault State.noteCheck State.noteDescErr State.rtuErr
  rw [if_neg (by omega), if_neg (by omega)]

/-- Every tile instruction answers a next state. -/
theorem State.run_next (s : State) (x : TileOp) : ∃ t, s.run x = .next t := by
  simp only [State.run]
  split
  · exact ⟨_, rfl⟩
  split
  · exact ⟨_, rfl⟩
  split
  · exact ⟨_, rfl⟩
  split
  · exact ⟨_, rfl⟩
  split
  · exact ⟨_, rfl⟩
  split <;> exact ⟨_, rfl⟩

end Sys2Proof.Machine
end

