-- ==== Sys2Proof/Laws/Memory.lean ====
section
/-!
SUPPORT. Every operation on memory keeps its canonical form and changes no byte but those it names; what is read back after a write.
-/
namespace Sys2Proof.Machine

/-- From s to t only memory, poison and the count of free values change; memory keeps its form, a byte outside `addrs` reads as before, and
no line becomes poisoned. -/
structure State.WritesOnly (s t : State) (addrs : List Nat) : Prop where
  frame : t = { s with mem := t.mem, poisoned := t.poisoned, freeCtr := t.freeCtr }
  form : t.memWf = true
  bytes : s.sameMemBut t addrs
  poison : ∀ l ∈ t.poisoned, l ∈ s.poisoned

namespace State.WritesOnly

variable {s t u : State} {l k : List Nat}

theorem refl (w : s.memWf = true) (l : List Nat) : s.WritesOnly s l := ⟨rfl, w, fun _ _ => rfl, fun _ h => h⟩

theorem mono (h : s.WritesOnly t l) (sub : ∀ a ∈ l, a ∈ k) : s.WritesOnly t k :=
  ⟨h.frame, h.form, fun a ha => h.bytes a fun hl => ha (sub a hl), h.poison⟩

theorem trans (h : s.WritesOnly t l) (g : t.WritesOnly u l) : s.WritesOnly u l := by
  refine ⟨?_, g.form, fun a ha => (g.bytes a ha).trans (h.bytes a ha), fun x hx => h.poison x (g.poison x hx)⟩
  rw [g.frame, h.frame]

/-- A fold of operations that each write only `l`. -/
theorem foldl {β : Type} {f : State → β → State} (xs : List β) (w : s.memWf = true)
    (h : ∀ x ∈ xs, ∀ t : State, t.memWf = true → t.WritesOnly (f t x) l) : s.WritesOnly (xs.foldl f s) l := by
  induction xs generalizing s with
  | nil => exact refl w l
  | cons x xs ih =>
    have h1 := h x (by simp) s w
    exact h1.trans (ih h1.form fun y hy => h y (by simp [hy]))

theorem tiles (h : s.WritesOnly t l) : t.tiles = s.tiles := by rw [h.frame]
theorem job (h : s.WritesOnly t l) : t.job = s.job := by rw [h.frame]
theorem part (h : s.WritesOnly t l) : t.part = s.part := by rw [h.frame]

end State.WritesOnly

namespace State

variable {s : State}

theorem wr_writesOnly (w : s.memWf = true) (a : Nat) (b : Byte) : s.WritesOnly (s.wr a b) [a] :=
  ⟨rfl, wr_memWf w a b, fun c hc => by rw [peek_wr w, if_neg (by simpa using hc)], fun _ h => h⟩

theorem clearPoison_writesOnly (w : s.memWf = true) (c : Nat → Bool) (l : List Nat) : s.WritesOnly (s.clearPoison c) l :=
  ⟨rfl, w, fun _ _ => rfl, fun _ h => List.mem_of_mem_filter h⟩

theorem foldl_wr_writesOnly {β : Type} (key : β → Nat) (val : β → Byte) (xs : List β) (w : s.memWf = true) :
    s.WritesOnly (xs.foldl (fun s x => s.wr (key x) (val x)) s) (xs.map key) := by
  obtain ⟨h1, h2, h3⟩ := foldl_wr key val xs s w
  refine ⟨?_, h2, h3, ?_⟩ <;> rw [h1]
  intro l h
  exact h

theorem wrList_writesOnly (w : s.memWf = true) (l : List (Nat × Byte)) : s.WritesOnly (s.wrList l) (l.map (·.1)) := by
  have h := foldl_wr_writesOnly (fun x : Nat × Byte => x.1) (fun x => x.2) l w
  exact h.trans (clearPoison_writesOnly h.form _ _)

theorem map_zipIdx_add (a : Nat) (l : List Byte) :
    l.zipIdx.map (fun x => a + x.2) = (List.range l.length).map (a + ·) := by
  apply List.ext_getElem <;> simp

theorem wrBytes_writesOnly (w : s.memWf = true) (a : Nat) (l : List Byte) :
    s.WritesOnly (s.wrBytes a l) ((List.range l.length).map (a + ·)) := by
  have h := foldl_wr_writesOnly (fun x : Byte × Nat => a + x.2) (fun x => x.1) l.zipIdx w
  rw [map_zipIdx_add] at h
  exact h.trans (clearPoison_writesOnly h.form _ _)

theorem leBytes_length (v n : Nat) : (leBytes v n).length = n := by simp [leBytes]

theorem wrNat_writesOnly (w : s.memWf = true) (a n v : Nat) : s.WritesOnly (s.wrNat a n v) ((List.range n).map (a + ·)) := by
  have h := wrBytes_writesOnly w a (leBytes v n)
  rwa [leBytes_length] at h

theorem wrBits_writesOnly (w : s.memWf = true) (phys : Nat → Nat) (bit n v : Nat) :
    s.WritesOnly (s.wrBits phys bit n v) ((List.range ((bit % 8 + n + 7) / 8)).map fun i => phys (bit / 8 + i)) :=
  foldl_wr_writesOnly (fun i => phys (bit / 8 + i)) _ _ w

theorem scramble_writesOnly (w : s.memWf = true) (l : List Nat) : s.WritesOnly (s.scramble l) l := by
  have h := foldl_wr_writesOnly (fun x : Nat × Nat => x.1) (fun x => Config.freeByte s.freeCtr x.2) l.zipIdx w
  have e : l.zipIdx.map (fun x => x.1) = l := by
    apply List.ext_getElem <;> simp
  rw [e] at h
  refine ⟨?_, h.form, h.bytes, h.poison⟩
  simp only [scramble]
  rw [h.frame]

theorem wrCode_writesOnly (w : s.memWf = true) (p : TileId) (t : EType) (x : Window) (a b c : Nat) :
    s.WritesOnly (s.wrCode p t x a b c)
      (x.elemBytes p t a b) := by
  unfold wrCode Window.elemBytes Window.spaceBytes
  dsimp only
  rw [List.map_map]
  split
  · exact WritesOnly.refl w _
  · exact wrBits_writesOnly w _ _ _ _

theorem wrScale_writesOnly (w : s.memWf = true) (p : TileId) (t : EType) (x : Window) (a b c : Nat) :
    s.WritesOnly (s.wrScale p t x a b c) (x.scaleBytes p t a b) := by
  unfold wrScale
  dsimp only
  split
  · exact WritesOnly.refl w _
  · exact foldl_wr_writesOnly (fun k => x.desc.phys p (x.desc.scaleAddr t (x.desc.bitAddr t.width x.half a b) + k)) _ _ w

theorem settleWrites_writesOnly (w : s.memWf = true) (p : TileId) (t : EType) (x : Window) (l : List Nat) :
    s.WritesOnly (s.settleWrites p t x) l := by
  unfold settleWrites
  split
  · exact WritesOnly.refl w _
  · exact clearPoison_writesOnly w _ _

/-! ### What a write leaves to read -/

theorem peek_foldl_wr (w : s.memWf = true) (a n : Nat) (l : List Byte) (b : Nat) :
    ((l.zipIdx n).foldl (fun s x => s.wr (a + x.2) x.1) s).peek b =
      if a + n ≤ b then (l[b - a - n]?).getD (s.peek b) else s.peek b := by
  induction l generalizing s n with
  | nil => simp
  | cons x l ih =>
    simp only [List.zipIdx_cons, List.foldl_cons]
    rw [ih (wr_memWf w _ _), peek_wr w]
    by_cases h1 : b = a + n
    · subst h1
      simp
    · by_cases h2 : a + n ≤ b
      · have h3 : a + (n + 1) ≤ b := by omega
        have h4 : b - a - n = (b - a - (n + 1)) + 1 := by omega
        simp [h1, h2, h3, h4]
      · have h3 : ¬ a + (n + 1) ≤ b := by omega
        simp [h1, h2, h3]

/-- Bytes that are written are there, and no others change. -/
theorem peek_wrBytes (w : s.memWf = true) (a : Nat) (l : List Byte) (b : Nat) :
    (s.wrBytes a l).peek b = if a ≤ b then (l[b - a]?).getD (s.peek b) else s.peek b := by
  have h := peek_foldl_wr w a 0 l b
  simp only [Nat.add_zero, Nat.sub_zero] at h
  exact h

theorem rd_eq_peek (h : s.poisoned = []) (a : Nat) : s.rd a = s.peek a := by simp [rd, isPoisoned, h]

theorem wrBytes_poisoned (h : s.poisoned = []) (w : s.memWf = true) (a : Nat) (l : List Byte) : (s.wrBytes a l).poisoned = [] := by
  have := (wrBytes_writesOnly w a l).poison
  rw [h] at this
  exact List.eq_nil_iff_forall_not_mem.mpr fun x hx => by simpa using this x hx

/-- Without poison, what was written reads back. -/
theorem rdBytes_wrBytes (h : s.poisoned = []) (w : s.memWf = true) (a : Nat) (l : List Byte) :
    (s.wrBytes a l).rdBytes a l.length = l := by
  apply List.ext_getElem
  · simp [rdBytes]
  · intro i h1 h2
    simp [rdBytes, rd_eq_peek (wrBytes_poisoned h w a l), peek_wrBytes w, List.getElem?_eq_getElem h2]

theorem rdBytes_wrBytes_disjoint (h : s.poisoned = []) (w : s.memWf = true) {a b n : Nat} {l : List Byte}
    (d : b + n ≤ a ∨ a + l.length ≤ b) : (s.wrBytes a l).rdBytes b n = s.rdBytes b n := by
  apply List.ext_getElem
  · simp [rdBytes]
  · intro i h1 h2
    simp only [rdBytes, List.length_map, List.length_range] at h1
    simp only [rdBytes, List.getElem_map, List.getElem_range, rd_eq_peek (wrBytes_poisoned h w a l), rd_eq_peek h,
      peek_wrBytes w]
    split
    · rw [List.getElem?_eq_none (by omega)]
      rfl
    · rfl

/-! ### Numbers as bytes -/

theorem leNat_leBytes (v n : Nat) : leNat (leBytes v n) = v % 256 ^ n := by
  induction n generalizing v with
  | zero => simp [leBytes, leNat, Nat.mod_one]
  | succ n ih =>
    have e : leBytes v (n + 1) = BitVec.ofNat 8 v :: leBytes (v / 256) n := by
      simp only [leBytes, List.range_succ_eq_map, List.map_cons, List.map_map, Nat.mul_zero, Nat.shiftRight_zero]
      congr 1
      apply List.map_congr_left
      intro i _
      simp only [Function.comp, Nat.shiftRight_eq_div_pow]
      congr 1
      rw [Nat.div_div_eq_div_mul, show (256 : Nat) = 2 ^ 8 by rfl, ← pow_add]
      congr 2
      omega
    have c : ∀ (b : Byte) (l : List Byte), leNat (b :: l) = b.toNat + 256 * leNat l := fun _ _ => rfl
    rw [e, c, ih, BitVec.toNat_ofNat, show 256 ^ (n + 1) = 256 * 256 ^ n by rw [pow_succ, Nat.mul_comm], Nat.mod_mul]

theorem rdNat_wrNat (h : s.poisoned = []) (w : s.memWf = true) (a n v : Nat) : (s.wrNat a n v).rdNat a n = v % 256 ^ n := by
  have e := rdBytes_wrBytes h w a (leBytes v n)
  rw [leBytes_length] at e
  rw [rdNat, wrNat, e, leNat_leBytes]

theorem rdNat_wrNat_disjoint (h : s.poisoned = []) (w : s.memWf = true) {a b n m v : Nat} (d : b + m ≤ a ∨ a + n ≤ b) :
    (s.wrNat a n v).rdNat b m = s.rdNat b m := by
  rw [rdNat, wrNat, rdBytes_wrBytes_disjoint h w (by rw [leBytes_length]; exact d), rdNat]

end State

end Sys2Proof.Machine
end

