-- ==== Sys2Proof/Laws/Faults.lean ====
section
/-!
SUPPORT. The shared operations on tiles, tallies, faults and draining leave the waiting commands, the part and the fuses alone and keep the
invariant.
-/
namespace Sys2Proof.Machine

/-- What every command does to what none may change, and to the invariant. -/
structure State.Keeps (s t : State) : Prop where
  untouched : Untouched s t
  inv : s.Inv → t.Inv

namespace State.Keeps

variable {s t u : State}

theorem refl (s : State) : s.Keeps s := ⟨⟨rfl, rfl, rfl, rfl⟩, id⟩

theorem trans (h : s.Keeps t) (g : t.Keeps u) : s.Keeps u :=
  ⟨⟨g.untouched.pending.trans h.untouched.pending, g.untouched.part.trans h.untouched.part,
    g.untouched.fuse.trans h.untouched.fuse, g.untouched.revoked.trans h.untouched.revoked⟩, fun i => g.inv (h.inv i)⟩

theorem foldl {β : Type} {f : State → β → State} (h : ∀ x (t : State), t.Keeps (f t x)) (xs : List β) (s : State) :
    s.Keeps (xs.foldl f s) := by
  induction xs generalizing s with
  | nil => exact refl s
  | cons x xs ih => exact (h x s).trans (ih _)

/-- An update of fields that neither of the two speaks of. -/
theorem of_eq (h1 : t.pending = s.pending) (h2 : t.part = s.part) (h3 : t.nv = s.nv) (h4 : t.mem = s.mem) (h5 : t.tiles = s.tiles)
    (h6 : t.light.pairs = s.light.pairs) (h7 : t.fabric.map = s.fabric.map) (h8 : t.mesh.routers = s.mesh.routers)
    (h9 : t.l2p = s.l2p) (h10 : t.rawTotals = s.rawTotals) : s.Keeps t :=
  ⟨⟨h1, h2, by rw [h3], by rw [h3]⟩, fun i => ⟨by rw [memWf, h4]; exact i.mem, by rw [h10]; exact i.totals,
    by rw [h3]; exact i.flash, by rw [h5]; exact i.tiles,
    by rw [h6]; exact i.pairs, by rw [h7]; exact i.map, by rw [h8]; exact i.routers, by rw [h9]; exact i.numbering⟩⟩

/-- An operation on memory. -/
theorem of_writes {l : List Nat} (h : s.memWf = true → s.WritesOnly t l)
    (f : t = { s with mem := t.mem, poisoned := t.poisoned, freeCtr := t.freeCtr }) : s.Keeps t := by
  refine ⟨⟨by rw [f], by rw [f], by rw [f], by rw [f]⟩, fun i => ⟨(h i.mem).form, ?_, ?_, ?_, ?_, ?_, ?_, ?_⟩⟩ <;> rw [f]
  exacts [i.totals, i.flash, i.tiles, i.pairs, i.map, i.routers, i.numbering]

theorem setTile (s : State) (p : TileId) (x : Tile) : s.Keeps (s.setTile p x) :=
  ⟨⟨rfl, rfl, rfl, rfl⟩, fun i => ⟨i.mem, i.totals, i.flash, setTile_tiles_wf i.tiles p x, i.pairs, i.map, i.routers, i.numbering⟩⟩

theorem modTile (s : State) (p : TileId) (f : Tile → Tile) : s.Keeps (s.modTile p f) := setTile s p _

theorem modPort (s : State) (i : Nat) (f : Port → Port) : s.Keeps (s.modPort i f) := by
  unfold State.modPort
  split <;> exact of_eq rfl rfl rfl rfl rfl rfl rfl rfl rfl rfl

theorem wrBytes (s : State) (a : Nat) (l : List Byte) : s.Keeps (s.wrBytes a l) := by
  refine of_writes (fun w => wrBytes_writesOnly w a l) ?_
  simp only [State.wrBytes]
  generalize l.zipIdx = k
  induction k generalizing s with
  | nil => rfl
  | cons x k ih => exact (ih (s.wr (a + x.2) x.1)).trans rfl

theorem wrNat (s : State) (a n v : Nat) : s.Keeps (s.wrNat a n v) := wrBytes s a _

theorem scramble (s : State) (l : List Nat) : s.Keeps (s.scramble l) := by
  refine of_writes (fun w => scramble_writesOnly w l) ?_
  have h : ∀ (k : List (Nat × Nat)) (n : Nat) (s : State),
      k.foldl (fun s x => s.wr x.1 (Config.freeByte n x.2)) s =
        { s with mem := (k.foldl (fun s x => s.wr x.1 (Config.freeByte n x.2)) s).mem } := by
    intro k n
    induction k with
    | nil => intro s; rfl
    | cons x k ih => intro s; exact (ih _).trans rfl
  simp only [State.scramble]
  rw [h]

/-! ### Draining and faults -/

theorem dropSlots (s : State) (p : TileId) (w : Transfer → Bool) : s.Keeps (s.dropSlots p w) := by
  unfold State.dropSlots
  exact (foldl (fun x t => scramble t (t.destBytes p x)) _ s).trans (modTile _ p _)

theorem dropPortWork (s : State) (p : TileId) : s.Keeps (s.dropPortWork p) := by
  unfold State.dropPortWork
  exact (foldl (fun (c : Coll) t => scramble t (c.dests.flatMap fun d => (List.range d.2).map (d.1 + ·))) _ s).trans
    (of_eq rfl rfl rfl rfl rfl rfl rfl rfl rfl rfl)

theorem discardWork (s : State) (p : TileId) : s.Keeps (s.discardWork p) :=
  ((dropSlots s p _).trans (dropPortWork _ p)).trans (modTile _ p _)

theorem drainTile (s : State) (p : TileId) : s.Keeps (s.drainTile p) := by
  unfold State.drainTile
  split
  · exact refl s
  · exact (discardWork s p).trans (modTile _ p _)

theorem drainSet (s : State) : s.Keeps s.drainSet := foldl (fun p t => drainTile t p) _ s

theorem drainOthers (s : State) (p : TileId) : s.Keeps (s.drainOthers p) := foldl (fun p t => drainTile t p) _ s

theorem noteEnd (s : State) (e : BitVec 3) : s.Keeps (s.noteEnd e) := of_eq rfl rfl rfl rfl rfl rfl rfl rfl rfl rfl

theorem reportFault (s : State) (n : Nat) (c : Byte) (h : Bool) : s.Keeps (s.reportFault n c h) := by
  unfold State.reportFault
  split
  · exact refl s
  · exact of_eq rfl rfl rfl rfl rfl rfl rfl rfl rfl rfl

theorem stopTileAt (s : State) (p : TileId) (c : Byte) (h : Bool) (pc : BitVec 48) (w : W64) : s.Keeps (s.stopTileAt p c h pc w) :=
  modTile s p _

theorem programFaultAt (s : State) (p : TileId) (c : Byte) (pc : BitVec 48) (w : W64) : s.Keeps (s.programFaultAt p c pc w) :=
  (((stopTileAt s p c false pc w).trans (reportFault _ _ _ _)).trans (noteEnd _ _)).trans (drainOthers _ p)

theorem programFault (s : State) (p : TileId) (c : Byte) (w : W64) : s.Keeps (s.programFault p c w) := programFaultAt s p c _ w

theorem tileHwFault (s : State) (p : TileId) (c : Byte) : s.Keeps (s.tileHwFault p c) :=
  ((((discardWork s p).trans (stopTileAt _ p c true _ 0)).trans (reportFault _ _ _ _)).trans (noteEnd _ _)).trans (drainOthers _ p)

theorem moduleHwFault (s : State) (c : Byte) : s.Keeps (s.moduleHwFault c) := by
  unfold State.moduleHwFault
  split
  · exact ((reportFault s _ _ _).trans (noteEnd _ _)).trans (drainSet _)
  · exact refl s

theorem moduleProgFault (s : State) (c : Byte) : s.Keeps (s.moduleProgFault c) := by
  unfold State.moduleProgFault
  split
  · exact ((reportFault s _ _ _).trans (noteEnd _ _)).trans (drainSet _)
  · exact refl s

theorem cancelLaunch (s : State) : s.Keeps s.cancelLaunch := by
  unfold State.cancelLaunch
  split
  · exact (noteEnd s 2).trans (drainSet _)
  · exact refl s

theorem recordUe (s : State) (a : Nat) : s.Keeps (s.recordUe a) := modPort s _ _

theorem modulePoison (s : State) (l : List Nat) : s.Keeps (s.modulePoison l) := by
  unfold State.modulePoison
  split
  · exact refl s
  · exact (foldl (fun _ t => recordUe t _) _ s).trans (moduleHwFault _ _)

theorem readByModule (s : State) (l : List Nat) : s.Keeps (s.readByModule l) := modulePoison s _

theorem tilePoison (s : State) (p : TileId) (l : List Nat) : s.Keeps (s.tilePoison p l) := by
  unfold State.tilePoison
  split
  · exact refl s
  · dsimp only
    split
    · exact (foldl (fun _ t => recordUe t _) _ s).trans (tileHwFault _ p _)
    · exact foldl (fun _ t => recordUe t _) _ s

theorem readByTile (s : State) (p : TileId) (l : List Nat) : s.Keeps (s.readByTile p l) := tilePoison s p _

/-! ### Tallies -/

theorem addTally (s : State) (p : TileId) (k : BitVec 6) (v : W32) : s.Keeps (s.addTally p k v) := modTile s p _

theorem checkDone (s : State) : s.Keeps s.checkDone := by
  unfold State.checkDone
  split
  · split
    · exact of_eq rfl rfl rfl rfl rfl rfl rfl rfl rfl rfl
    · exact refl s
  · exact refl s

theorem setHostTally (s : State) (k : BitVec 6) (v : W32) : s.Keeps (s.setHostTally k v) :=
  (of_eq rfl rfl rfl rfl rfl rfl rfl rfl rfl rfl : s.Keeps { s with hostTallies := s.hostTallies.set k.toNat v (by omega) }).trans
    (checkDone _)

theorem addMemCounter (s : State) (a : Nat) (v : W32) : s.Keeps (s.addMemCounter a v) := by
  unfold State.addMemCounter State.touchAtomic
  exact (wrNat s a 8 _).trans (modPort _ _ _)

/-! ### Issue -/

theorem checkFault (s : State) (p : TileId) (c : Check) (w : W64) : s.Keeps (s.checkFault p c w) := by
  have h1 : s.Keeps (s.noteDescErr p c) := by
    unfold State.noteDescErr
    split
    · exact modTile s _ _
    · exact refl s
  have h2 : (s.noteDescErr p c).Keeps ((s.noteDescErr p c).rtuErr p c.cause) := by
    unfold State.rtuErr
    split
    · exact of_eq rfl rfl rfl rfl rfl rfl rfl rfl rfl rfl
    · exact refl _
  exact (h1.trans h2).trans (programFault _ _ _ _)

theorem nameHwFault (s t : State) (x : TileOp) : t.Keeps (s.nameHwFault t x) := by
  unfold State.nameHwFault
  dsimp only
  split
  · exact modTile t x.p _
  · exact refl t

theorem enqueue (s : State) (x : TileOp) : s.Keeps (s.enqueue x) := by
  unfold State.enqueue
  split
  · exact (modTile s x.p _).trans (modTile _ x.p _)
  · exact refl s

/-- An instruction keeps what its effect keeps. -/
theorem run {s t : State} {x : TileOp} (h : ∀ u : State, u.Keeps (x.effect u)) (e : s.run x = .next t) : s.Keeps t := by
  unfold State.run at e
  dsimp only at e
  split at e
  · cases e; exact refl s
  split at e
  · cases e; exact programFault s _ _ _
  split at e
  · cases e; exact refl s
  split at e
  · cases e
    exact checkFault s x.p _ _
  · split at e
    · cases e; exact refl s
    split at e
    · cases e; exact enqueue s x
    · cases e
      exact ((modTile s x.p _).trans (h _)).trans (nameHwFault s _ x)

end State.Keeps

end Sys2Proof.Machine
end

