-- ==== Sys2Proof/Machine/LaneCode.lean ====
section
/-!
DEFINITION. What a lane carries (R291 to R293, R310, R311): frames as bytes with their CRC-64, lane data, codeword headers, the
scrambler, and the RS(544,514) code with its decoder.
-/
namespace Sys2Proof.Machine

/-! ### Frames as bytes (R310, R311, R332) -/

def flagBits (l : List Bool) : Nat := (l.zipIdx.map fun x => if x.1 then 2 ^ x.2 else 0).foldl (· + ·) 0

/-- Bytes 0x00 to 0x0F of a frame header. -/
def linkBytes (h : LinkHeader) (ctrl : Bool) : List Byte :=
  leBytes h.seq.toNat 2 ++ leBytes h.ack.toNat 2 ++ leBytes (flagBits [ctrl, h.nak, h.replay]) 1 ++ [h.credit, h.margin] ++
    List.replicate 9 0#8

/-- Bytes 0x10 to 0x3F: the transport's part; no control frame has one. -/
def transportBytes : Option Frame → List Byte
  | none => List.replicate 48 0#8
  | some f => headerBytes f

/-- A frame of a message of bytes (R344, R348). -/
def ofBytes (kind nblk : Nat) : Bool := kind == 1 && nblk == 0

/-- The 2,048 payload bytes: zeros follow what fills less, and the last two of a frame of a message of bytes count its bytes.
(DESIGN CHOICE, log 69). -/
def payloadBytes (f : Frame) : List Byte :=
  let room := if ofBytes f.kind.toNat f.nblk.toNat then byteRoom else 2048
  (f.payload ++ List.replicate room 0#8).take room ++
    if ofBytes f.kind.toNat f.nblk.toNat then leBytes f.payload.length 2 else []

/-- The bytes of a frame: 2,120 of a data frame, 72 of a control frame. (PRESUMED, log 107). -/
def frameBytes (h : LinkHeader) (f : Option Frame) : List Byte :=
  let l := linkBytes h f.isNone ++ transportBytes f ++ match f with
    | some f => payloadBytes f
    | none => []
  l ++ leBytes (crc64 l).toNat 8

/-- The CRC of received bytes matches: CRC-64 over every byte before it. -/
def frameIntact (l : List Byte) : Bool :=
  (l.length == 2120 || l.length == 72) && (l.drop (l.length - 8)) == leBytes (crc64 (l.take (l.length - 8))).toNat 8

/-- The link header that received bytes spell; reserved bytes are ignored. -/
def headerOf (l : List Byte) : LinkHeader :=
  let n (o k : Nat) : Nat := leNat ((l.drop o).take k)
  ⟨BitVec.ofNat 16 (n 0 2), BitVec.ofNat 16 (n 2 2), (n 4 1).testBit 1, (n 4 1).testBit 2, BitVec.ofNat 8 (n 5 1),
    BitVec.ofNat 8 (n 6 1)⟩

/-- The transport frame that received bytes spell; none of a control frame. (PRESUMED, log 107). -/
def frameOf (l : List Byte) : Option Frame :=
  let n (o k : Nat) : Nat := leNat ((l.drop o).take k)
  if (n 4 1).testBit 0 then none
  else some {
    tag := BitVec.ofNat 16 (n 0x10 2), kind := BitVec.ofNat 8 (n 0x12 1), via := (n 0x13 1).testBit 0,
    src := BitVec.ofNat 8 (n 0x14 1), dst := BitVec.ofNat 8 (n 0x15 1), group := BitVec.ofNat 8 (n 0x16 1),
    nblk := BitVec.ofNat 8 (n 0x17 1), dstid := BitVec.ofNat 64 (n 0x18 8), coll := BitVec.ofNat 32 (n 0x20 4),
    fidx := BitVec.ofNat 32 (n 0x24 4), arg := BitVec.ofNat 64 (n 0x28 8),
    nfmask := BitVec.ofNat 128 (n 0x30 16),
    payload := (l.drop 0x40).take (if ofBytes (n 0x12 1) (n 0x17 1) then min byteRoom (n 0x83E 2) else 2048) }

/-! ### GF(2^10) and RS(544,514) (R291: the code of IEEE 802.3 Clause 119; PRESUMED, log 107) -/

namespace Rs

/-- Multiplication modulo x^10 + x^3 + 1. -/
def mul (a b : Nat) : Nat :=
  let rec go : Nat → Nat → Nat → Nat
    | 0, _, _ => 0
    | n + 1, x, y =>
      let x2 := if 512 ≤ x then (x * 2) ^^^ 0x409 else x * 2
      (if y % 2 = 1 then x else 0) ^^^ go n x2 (y / 2)
  go 10 a b

def pow (a : Nat) : Nat → Nat
  | 0 => 1
  | n + 1 => mul a (pow a n)

/-- The inverse, a^1022. -/
def inv (a : Nat) : Nat := pow a 1022

/-- A polynomial, lowest coefficient first, at a point. -/
def eval (p : List Nat) (x : Nat) : Nat := p.foldr (fun c acc => c ^^^ mul x acc) 0

def addPoly (p q : List Nat) : List Nat := (List.range (max p.length q.length)).map fun i => p.getD i 0 ^^^ q.getD i 0
def scalePoly (c : Nat) (p : List Nat) : List Nat := p.map (mul c)

/-- Thirty check symbols: the generator is the product of x + 2^j for j from 0 to 29. (PRESUMED, log 107). -/
def generator : List Nat := (List.range 30).foldl (fun g j => addPoly (0 :: g) (scalePoly (pow 2 j) g)) [1]

/-- The check symbols of a message, highest coefficient first. -/
def parity (msg : List Nat) : List Nat :=
  let g := (generator.take 30).reverse
  msg.foldl (fun r m =>
    let f := m ^^^ r.headD 0
    addPoly (r.drop 1 ++ [0]) (scalePoly f g)) (List.replicate 30 0)

/-- A codeword: 514 message symbols, then 30 check symbols. (PRESUMED, log 107). -/
def encode (msg : List Nat) : List Nat := msg ++ parity msg

/-- The thirty syndromes of 544 received symbols. -/
def syndromes (r : List Nat) : List Nat := (List.range 30).map fun j => eval r.reverse (pow 2 j)

/-- The error locator by the algorithm of Berlekamp and Massey, with its degree. -/
def locator (s : List Nat) : List Nat × Nat :=
  let step (x : List Nat × List Nat × Nat × Nat) (n : Nat) : List Nat × List Nat × Nat × Nat :=
    let (c, b, len, last) := x
    let d := ((List.range (len + 1)).map fun i => if i ≤ n then mul (c.getD i 0) (s.getD (n - i) 0) else 0).foldl (· ^^^ ·) 0
    if d = 0 then (c, 0 :: b, len, last)
    else
      let t := addPoly c (scalePoly (mul d (inv last)) (0 :: b))
      if 2 * len ≤ n then (t, c, n + 1 - len, d) else (t, 0 :: b, len, last)
  let x := (List.range 30).foldl step ([1], [1], 0, 1)
  (x.1, x.2.2.1)

/-- The decoder (R291): the corrected symbols and how many were corrected, at most 15; none where it cannot correct.
(PRESUMED, log 107). -/
def decode (r : List Nat) : Option (List Nat × Nat) :=
  let s := syndromes r
  if s.all (· == 0) then some (r, 0)
  else
    let (lam, deg) := locator s
    -- position i holds the coefficient of x^i
    let at_ := (List.range 544).filter fun i => eval lam (pow (inv 2) i) == 0
    if 15 < deg ∨ at_.length ≠ deg then none
    else
      let omega := (List.range 30).map fun n => ((List.range (n + 1)).map fun i => mul (lam.getD i 0) (s.getD (n - i) 0)).foldl
        (· ^^^ ·) 0
      let slope := (List.range lam.length).map fun i => if i % 2 = 0 then lam.getD (i + 1) 0 else 0
      let fix (i : Nat) : Nat :=
        let x := pow (inv 2) i
        mul (pow 2 i) (mul (eval omega x) (inv (eval slope x)))
      let out := r.zipIdx.map fun y => if at_.contains (543 - y.2) then y.1 ^^^ fix (543 - y.2) else y.1
      if (syndromes out).all (· == 0) then some (out, deg) else none

end Rs

/-! ### The scrambler (R291) -/

/-- The self-synchronous scrambler x^58 + x^39 + 1 over the bits of a lane, with the last 58 bits sent, newest first.
(PRESUMED, log 107). -/
def scrambleBits (hist : List Bool) : List Bool → List Bool
  | [] => []
  | b :: l =>
    let y := b ^^ hist.getD 38 false ^^ hist.getD 57 false
    y :: scrambleBits ((y :: hist).take 58) l

/-- The descrambler, with the last 58 bits received. -/
def descrambleBits (hist : List Bool) : List Bool → List Bool
  | [] => []
  | y :: l => (y ^^ hist.getD 38 false ^^ hist.getD 57 false) :: descrambleBits ((y :: hist).take 58) l

/-- The bits of a number or of bytes, lowest first. -/
def bitsOf (n k : Nat) : List Bool := (List.range k).map n.testBit
def bytesBits (l : List Byte) : List Bool := l.flatMap fun b => bitsOf b.toNat 8
def bitsNat (l : List Bool) : Nat := (l.zipIdx.map fun x => if x.1 then 2 ^ x.2 else 0).foldl (· + ·) 0

/-! ### Codewords (R291, R292) -/

/-- The 640 bytes of lane data of a codeword with its header fields. -/
structure LaneWord where
  fso : BitVec 10
  kind : BitVec 2
  rxState : BitVec 2
  colour : BitVec 5
  data : List Byte
  deriving DecidableEq, Repr

/-- The codeword header: bit 19 is zero. -/
def LaneWord.header (w : LaneWord) : BitVec 20 := 0#1 ++ w.colour ++ w.rxState ++ w.kind ++ w.fso

/-- RXSTATE as a pair sends it (R292). -/
def PairState.rxState : PairState → BitVec 2
  | .dark => 0
  | .acquire => 0
  | .test => 1
  | .up => 2
  | .hold => 3
  | .out => 3

/-- The last 58 bits of a lane, newest first, after the bits `l`. -/
def newestBits (hist l : List Bool) : List Bool := (l.reverse ++ hist).take 58

/-- A codeword as a lane sends it after the bits `hist`: header, then scrambled lane data, in tens of bits, then the check symbols;
with the scrambler's bits after it. (PRESUMED, log 107). -/
def LaneWord.send (w : LaneWord) (hist : List Bool) : List Nat × List Bool :=
  let data := scrambleBits hist (bytesBits w.data)
  let bits := bitsOf w.header.toNat 20 ++ data
  (Rs.encode ((List.range 514).map fun i => bitsNat ((bits.drop (10 * i)).take 10)), newestBits hist data)

/-- One continuous stream of codewords (R291): the scrambler runs on from each codeword to the next. -/
def sendWords (hist : List Bool) : List LaneWord → List (List Nat)
  | [] => []
  | w :: l =>
    let x := w.send hist
    x.1 :: sendWords x.2 l

/-- Frames packed into lane data back to back across codewords (R291): `left` bytes of a frame come from the codeword before. Bytes
that no frame fills are those of `fill`. (PRESUMED, log 107). -/
def packWords (rx : BitVec 2) (c : PairId) (fill : Nat → Byte) (left : List Byte) (frames : List (List Byte)) : List LaneWord :=
  let data := left ++ frames.flatten
  let starts := (frames.foldl (fun (x : List Nat × Nat) f => (x.1 ++ [x.2], x.2 + f.length)) ([], left.length)).1
  (List.range ((data.length + 639) / 640)).map fun k =>
    let first := starts.find? fun o => decide (640 * k ≤ o) && decide (o < 640 * k + 640)
    { fso := match first with
        | some o => BitVec.ofNat 10 (o - 640 * k)
        | none => 0x3FF
      kind := 0, rxState := rx, colour := BitVec.ofNat 5 c.1,
      data := (List.range 640).map fun i => data.getD (640 * k + i) (fill (640 * k + i)) }

/-- A received codeword (R293): whether the decoder could correct it, and its header. (PRESUMED, log 107). -/
def codewordOf (r : List Nat) : Codeword :=
  match Rs.decode r with
  | none => ⟨false, 0, 0, 0, 0, 0⟩
  | some (m, n) =>
    let h : BitVec 20 := BitVec.ofNat 20 (m.headD 0 + 1024 * (m.getD 1 0))
    ⟨true, n, h.extractLsb' 0 10, h.extractLsb' 10 2, h.extractLsb' 12 2, h.extractLsb' 14 5⟩

/-- A receive lane as bytes: the last 58 scrambled bits, newest first, and the bytes of the frame that is not whole yet; none where
no frame start is known (R291, R293). -/
structure LaneRx where
  hist : List Bool
  part : Option (List Byte)
  deriving DecidableEq, Repr

/-- The whole frames at the front of received bytes, back to back (R291, R310), with what is left; FLAGS bit 0 tells a control
frame's 72 bytes from a data frame's 2,120. The first argument bounds how many. -/
def cutFrames : Nat → List Byte → List (List Byte) × List Byte
  | 0, l => ([], l)
  | n + 1, l =>
    let size := if (l.getD 4 0).getLsbD 0 then 72 else 2120
    if l.length < 5 ∨ l.length < size then ([], l)
    else
      let x := cutFrames n (l.drop size)
      (l.take size :: x.1, x.2)

/-- A received codeword joins the stream of its lane: its lane data is descrambled and unpacked into frames (R291, R292). Of a
codeword whose lane data is discarded, and until the next frame start after it, no byte joins a frame (R293); one that is not data
carries no frame bytes. (PRESUMED, log 107). -/
def LaneRx.take (x : LaneRx) (r : List Nat) : LaneRx × List (List Byte) :=
  let w := codewordOf r
  let sent := ((((Rs.decode r).map (·.1)).getD r).take 514 |>.flatMap fun v => bitsOf v 10).drop 20
  let hist := newestBits x.hist sent
  if dataDiscarded w then (⟨hist, none⟩, [])
  else if w.kind ≠ 0 then ({ x with hist := hist }, [])
  else
    let bits := descrambleBits x.hist sent
    let data := (List.range 640).map fun i => BitVec.ofNat 8 (bitsNat ((bits.drop (8 * i)).take 8))
    match x.part, w.fso == 0x3FF with
    | none, true => (⟨hist, none⟩, [])
    | none, false =>
      let y := cutFrames 9 (data.drop w.fso.toNat)
      (⟨hist, some y.2⟩, y.1)
    | some l, _ =>
      let y := cutFrames 40 (l ++ data)
      (⟨hist, some y.2⟩, y.1)

/-- The frames, as bytes, in a run of received codewords (R291). -/
def LaneRx.run (x : LaneRx) : List (List Nat) → List (List Byte)
  | [] => []
  | r :: l =>
    let y := x.take r
    y.2 ++ y.1.run l

namespace State

/-- The frames that the module has sent on a transmit lane since its pair entered UP, as bytes, oldest first. -/
def laneFrames (s : State) (q : PlaneId) (c : PairId) : List (List Byte) :=
  (s.light.sent.filter fun x => x.plane == q && x.pair == c).map fun x => frameBytes x.header x.frame

/-- The codewords that carry them with none between; what fills the last one is free. (PRESUMED, log 107). -/
def laneWords (s : State) (q : PlaneId) (c : PairId) : List LaneWord :=
  packWords (s.pair q c).state.rxState c (Config.freeByte s.freeCtr) [] (s.laneFrames q c)

/-- The symbols of that stream as the lane sends them; the bits that the scrambler starts from are free (R291). (PRESUMED, log 107). -/
def laneSymbols (s : State) (q : PlaneId) (c : PairId) : List (List Nat) :=
  sendWords ((bytesBits ((List.range 8).map (Config.freeByte s.freeCtr))).take 58) (s.laneWords q c)

/-- The codeword a lane sends while it carries no frame (R298, R301), and the pause marker (R305): its lane data is free.
(PRESUMED, log 107). -/
def emptyWord (s : State) (q : PlaneId) (c : PairId) (pause : Bool) : LaneWord :=
  { fso := 0x3FF, kind := if pause then 2 else 1, rxState := (s.pair q c).state.rxState, colour := BitVec.ofNat 5 c.1,
    data := (List.range 640).map (Config.freeByte s.freeCtr) }

end State

end Sys2Proof.Machine
end

