-- ==== Sys2Proof/Tests/Slice0.lean ====
section
/-!
SUPPORT. Tests. Worked examples of the spec, the WellFormed smoke tests, and for each statement a state and operands that meet its
hypotheses.
-/

namespace Sys2Proof.Tests

-- Each theorem is checked before the next begins: many at once would need more memory than the check allows.
set_option Elab.async false
open Machine

/-! ### Small states -/

/-- A running launch of one tile, with its code in the first 64 KiB of DDR and one work list. -/
def job0 : Job :=
  { first := 0, count := 1, param := 0x10000, seq := 1, jobtag := 7, user := 0, userLen := 0, codeLo := 0, codeHi := 0x10000,
    doneTally := 0, doneCount := 1,
    armed := [], lists := [⟨0x20000, 0x30000, 8, false, false, 0x30040⟩, ⟨0x21000, 0x30080, 8, false, true, 0⟩],
    formats := .empty, curves := none, mprog := none, layerFmt := 0, nlayer := 0, policy := none,
    stats := 0, update := none, step := none, route := none }

def tile0 : Tile := { Tile.reset with state := .issuing, pc := 0x100 }

/-- A module whose launch of `j` runs on tile 0, which is `t`. -/
def stateOf (t : Tile) (j : Job := job0) : State :=
  { State.reset with
    tiles := [(0, t)], l2p := [⟨0, by decide⟩, ⟨1, by decide⟩], meshOpen := true, job := some j
    launch := { LaunchRegs.reset with run := true, st := 2 } }

def s0 : State := stateOf tile0
def p0 : TileId := ⟨0, by decide⟩
def p1 : TileId := ⟨1, by decide⟩

/-- Every part of the invariant that is a Bool. -/
def invB (s : State) : Bool :=
  s.memWf && Sparse.wf none s.rawTotals && Sparse.wf flashDefault s.nv.flash && Sparse.wf Tile.reset s.tiles && Sparse.wf Pair.reset s.light.pairs &&
  Sparse.wf MapEntry.reset s.fabric.map && Sparse.wf Router.reset s.mesh.routers &&
  decide (s.l2p.Pairwise fun p q => p.1 < q.1)

theorem inv_of {s : State} (h : invB s = true) : s.Inv := by
  simp only [invB, Bool.and_eq_true, decide_eq_true_eq] at h
  exact ⟨h.1.1.1.1.1.1.1, h.1.1.1.1.1.1.2, h.1.1.1.1.1.2, h.1.1.1.1.2, h.1.1.1.2, h.1.1.2, h.1.2, h.2⟩

def readyB (s : State) (p : TileId) (regs : List (BitVec 5)) : Bool :=
  decide ((s.tile p).state = .issuing) && s.pcLegal (s.tile p).pc 8 && regs.all fun r => !(s.tile p).isPending r

theorem ready_of {s : State} {p : TileId} {regs : List (BitVec 5)} (h : readyB s p regs = true) : s.ready p regs := by
  simpa [readyB, State.ready, and_assoc] using h

def issuesB (s : State) (x : TileOp) : Bool :=
  readyB s x.p x.reads && x.checks.all (fun c => !c.bad) && !x.held && !s.queueFull x && !(s.tile x.p).mustWait x

theorem issues_of {s : State} {x : TileOp} (h : issuesB s x = true) : s.issues x := by
  simp only [issuesB, Bool.and_eq_true, List.all_eq_true, Bool.not_eq_true'] at h
  exact ⟨ready_of h.1.1.1.1, h.1.1.1.2, h.1.1.2, h.1.2, h.2⟩

/-- The tile's queues hold no work that an access would wait for. -/
def queuesFree (s : State) (p : TileId) : Bool :=
  !(s.tile p).smemStalled && !(s.tile p).smemFull && !s.portStalled p && !s.portFull p && (s.tile p).waiting.isEmpty

theorem queues_of {s : State} {p : TileId} (h : queuesFree s p = true) : (s.tile p).smemReady ∧ s.portReady p := by
  simp only [queuesFree, Bool.and_eq_true, Bool.not_eq_true', List.isEmpty_iff] at h
  obtain ⟨⟨⟨⟨a, b⟩, c⟩, d⟩, e⟩ := h
  exact ⟨⟨a, b, by simp [e]⟩, ⟨c, d, by simp [e]⟩⟩

theorem s0_inv : s0.Inv := inv_of (by decide +kernel)

/-! ### Worked examples of the spec -/

/-- Chapter 01: a field map that prunes tiles 77 and 1,030 and suspects tile 520, at SEQ 7 (first 48 bytes). -/
theorem test_fieldMapImage : (FieldImg.build 7 (TileMap.add (TileMap.add 0 ⟨77, by decide⟩) ⟨1030, by decide⟩) [⟨520, by decide⟩]).take 48 =
    [0x50, 0x46, 0x4D, 0x50, 7, 0, 0, 0, 2, 0, 1, 0, 8, 2, 0xFF, 0xFF, 0xFF, 0xFF, 0xFF, 0xFF, 0xFF, 0xFF, 0xFF, 0xFF, 0xFF, 0xFF, 0xFF, 0xFF,
      0, 0, 0, 0, 0, 0, 0, 0, 0, 0, 0, 0, 0, 0x20, 0, 0, 0, 0, 0, 0] := by decide +kernel

/-- Chapter 02: the user format U3, its largest and its smallest value. -/
theorem test_userFormat : entryValid 0x34335346_00000002_18034328#128 = true ∧
    FVal.eq (entryFmt 0x34335346_00000002_18034328#128).largest (FVal.ofInt 30) = true ∧
    FVal.eq (entryFmt 0x34335346_00000002_18034328#128).smallest (.fin false 1 (-6)) = true ∧
    (entryType 0x34335346_00000002_18034328#128).block = 32 := by decide +kernel

/-- Chapter 02: three MXFP8-E4M3 blocks; the anchor is 4, the word 2^91 + 2 and the result 2^-5, binary32 0x3D00_0000. -/
theorem test_wideSum :
    let c (scale code : Nat) : Contribution := ⟨.mx (.flt Fmt.e4m3) 8, scale, [code], false⟩
    let cs := [c 0x7A 0x40, c 0x78 0xC8, c 0x27 0x03]
    anchor cs = some 4 ∧ (cs.flatMap fun x => x.values.map (enterWord 4)).sum = 2 ^ 91 + 2 ∧
    (wideSum cs 1).map (fun x => b32Bits x.1) = [0x3D000000] := by decide +kernel

/-- Chapter 04: layer 17 at the commit of step 1,200. -/
theorem test_layerFormat :
    let p : Policy := ⟨3, 3, 64, true, 0x0C0C, 0x0E0E, [0x0E0C66, 0x280C0C, 0xFF0E0E]⟩
    let hist (b : Nat) : List Nat := (List.range 16).map fun i => if i = b then 1000 else 0
    let m (b : Nat) : Merged := ⟨hist b, b64Bits (.fin false 3 (-3)), 0, 0, 1000, -40, 1⟩
    (m 13).span 64 = some 14 ∧ (m 14).span 64 = some 12 ∧
    evalEntry p 1200 false (m 14) (m 13) 0x03900C0C = 0x000004B0_00800C66 := by decide +kernel

/-- Chapter 06: the Philox-4×32-10 known answers (Random123), and the draw of element 69 after SEEK with sub = 3. -/
theorem test_philox : philox 0 0 0 0 0 = 0x6627E8D5 ∧
    philox 0xFFFFFFFFFFFFFFFF 0xFFFFFFFF 0xFFFFFFFF 0xFFFFFFFF 0xFFFFFFFF = 0x408F276D ∧
    ({ Tile.reset with lanes := Tile.reset.lanes.set 5 ⟨9, 0, 0x30005, 0x1F4A, 0⟩ }).elemDraw 1 69 0 =
      philox 9 1 0x30005 0x1F4A 0 := by decide +kernel

/-- A record of chapter 07: rank, type, flags, FOLD, sizes and strides, over the range [a, a + n). -/
def record (head a n s0 s1 s2 t1 t2 : Nat) : List Byte :=
  leBytes head 8 ++ leBytes a 8 ++ leBytes a 8 ++ leBytes n 8 ++ List.replicate 20 0 ++ leBytes s0 4 ++ leBytes s1 4 ++ leBytes s2 4 ++
    List.replicate 24 0 ++ leBytes t1 8 ++ leBytes t2 8 ++ List.replicate 24 0

/-- The error of a record, as cause and dimension. -/
def recordError (r : List Byte) : Option (Byte × Nat) :=
  match validate .empty (2 ^ 42) (fun _ => true) r with
  | .ok _ => none
  | .error e => some (e.cause, e.dim)

/-- Chapter 07: the parcel table read forwards and in descending order, and the gradient blocks with four strides. -/
theorem test_descriptors :
    recordError (record 0x01080C02 0x10000000000 422400000000 192 1100000000 0 384 0) = none ∧
    recordError (record 0x01080C02 0x10000000000 422400000000 192 1100000000 0 448 0) = some (0x44, 1) ∧
    recordError (record 0x01010C03 0x10000 0x40000 64 32 4 128 2048) = some (0x46, 2) ∧
    recordError (record 0x01010C03 0x10000 0x40000 64 32 4 128 4096) = none ∧
    recordError (record 0x01010C03 0x10000 0x40000 64 32 4 128 0) = some (0x45, 2) ∧
    recordError (record 0x01000C03 0x10000 0x40000 64 32 4 128 0) = none := by decide +kernel

/-- Chapter 07: 1,024 rows in descending order from row 5,000 pass; from row 500 they are 0x44 in dimension 1. -/
theorem test_descending :
    let d (row : Nat) : Desc := { recordDesc (record 0x01080C02 0x10000000000 422400000000 192 1024 0 (2 ^ 64 - 384) 0) with
      base := 0x10000000000 + 384 * row }
    let err (row : Nat) : Option (Byte × Nat) := ((d row).checkRange (.plain (.flt Fmt.bf16) 16) (2 ^ 42) (fun _ => true)).map fun e =>
      (e.cause, e.dim)
    err 5000 = none ∧ err 500 = some (0x44, 1) := by decide +kernel

/-- Chapter 08: the fields of layer 12. -/
def layer12 : List Byte := leBytes 0 8 ++ leBytes 640 2 ++ [0, 2, 20, 1] ++ List.replicate 18 0

/-- Chapter 08: capacities, the ranking of tokens 0 and 1, the assignment of four tokens, and token 2's dispatch record. -/
theorem test_routing :
    let q (n : Int) : FVal := FVal.mul (FVal.ofInt n) (.fin false 1 (-3))
    let a := [[117, 33, 402, 590], [33, 251, 117, 8], [251, 8, 590, 402], [590, 33, 8, 117]].zipIdx.foldl
      (fun a x => assignToken 1 2 x.2 x.1 [0, 0, 0, 0] a) ⟨List.replicate 640 0, List.replicate 640 0, [], []⟩
    Route.cap layer12 4 = 1 ∧ Route.cap layer12 8192 = 32 ∧ Route.sstr 1 = 64 ∧
    rankBy [q 10, q 6, q 10, q (-3)] = [0, 2, 1, 3] ∧ rankBy [q 16, q 8, q 2, q 2] = [0, 1, 2, 3] ∧
    rankBy [q 4, q 5, q 24, q 8] = [2, 3, 1, 0] ∧
    a.slots = [(117, 0), (33, 0x100000), (251, 1), (8, 0x100001), (590, 2), (402, 0x100002)] ∧
    [117, 33, 251, 8, 590, 402].map (fun e => (a.load.getD e 0, a.overflow.getD e 0)) = [(1, 2), (1, 2), (1, 1), (1, 2), (1, 1), (1, 0)] ∧
    dispBytes 2 2 1 [some (590, 2, 0, 0x3F000000), some (402, 3, 0, 0x3F000000)] =
      [2, 0, 0, 0, 2, 0, 0, 0, 0x4E, 2, 2, 0, 0, 0, 0, 0, 0, 0, 0, 0x3F, 0x92, 1, 3, 0, 0, 0, 0, 0, 0, 0, 0, 0x3F,
        0xFF, 0xFF, 0xFF, 0, 0xFF, 0xFF, 0xFF, 0xFF, 0, 0, 0, 0, 0xFF, 0xFF, 0xFF, 0, 0xFF, 0xFF, 0xFF, 0xFF, 0, 0, 0, 0, 0, 0, 0, 0, 0, 0, 0, 0] := by
  decide +kernel

/-- Chapter 09: the channel of an address, and one element of the parcel table after 37 skipped steps, within 10^-7. -/
theorem test_update : State.channelOf 0x01000000_5800 = 10 ∧
    let c (n : Nat) : FVal := Fmt.b32.decode n
    let x := optStep ⟨0, false, c 0x3F666666, c 0x3F7FBE77, c 0x322BCC77, .fin false 1 (-10), c 0x3DCCCCCD, 1038, 37, none⟩
      ⟨.fin false 5 (-2), .fin false 1 (-1), c 0x3C23D70A⟩ (.fin false 1 (-3))
    let near (v : FVal) (n : Int) : Bool := let w := FVal.mul v (FVal.ofInt 100000000)
      FVal.lt (FVal.ofInt (n - 15)) w && FVal.lt w (FVal.ofInt (n + 15))
    near x.w 124519685 = true ∧ near x.m1 2162400 = true ∧ near x.m2 964257 = true := by decide +kernel

/-- Chapter 10: the five-point table at 250 W gives −96.0 GHz. -/
theorem test_feedforward :
    let x : Plane := { Plane.reset with tuneN := 5, tune := #v[0, 0xFE800064, 0xFD0000C8, 0xFB80012C, 0xFA000190, 0, 0, 0, 0, 0, 0, 0, 0, 0, 0, 0] }
    (x.offsetAt 250).1 = -960 * ((x.offsetAt 250).2 : Int) ∧ x.tuneValid = true := by decide +kernel

/-- The check value of the CRC-64/XZ parameter set. -/
theorem test_crc64 : crc64 [0x31, 0x32, 0x33, 0x34, 0x35, 0x36, 0x37, 0x38, 0x39] = 0x995DC9BBDF1939FA := by decide +kernel

/-- FIPS 180-4: SHA-384 of "abc". -/
theorem test_sha384 : (sha384 [0x61, 0x62, 0x63]).take 8 = [0xCB, 0x00, 0x75, 0x3F, 0x45, 0xA3, 0x5E, 0x8B] := by decide +kernel

/-- Chapter 15: at 47.0 V, 36 °C and CAP_SET 14,000 W, P_cap is 13.5 kW and the coolant sets it. -/
theorem test_powerCap : powerCap ⟨.c04T, .a, false⟩ 4700 14000 288 200 = (13500 * 8 * 180, 3) := by decide +kernel

/-- Chapter 16: addresses. -/
theorem test_addresses : placeOf ⟨.c04T, .a, false⟩ 0x7F00_0209_0024 = .opt 9 0x24 ∧ placeOf ⟨.c04T, .a, false⟩ 0x7F00_0425_0018 = .port 37 0x18 ∧
    placeOf ⟨.c04T, .a, false⟩ 0x7E00_0064_0114 = .tile ⟨100, by decide⟩ 0x114 ∧ placeOf ⟨.c04T, .a, false⟩ 0x7F00_0600_1190 = .eth 1 0x190 ∧ State.ringAt 0x190 = some (2, 0x10) ∧
    sramWindow 0x4001_9100_0000 = some (⟨100, by decide⟩, 0x0100_0000) := by decide +kernel

/-! ### WellFormed: one ill-formed command for each check -/

theorem test_wf_linkFail : (Instr.pgAssert ⟨0, [], [], [], [], [(⟨0, by decide⟩, ⟨2, by decide⟩)]⟩).wf = false := by decide
theorem test_wf_flits : (Instr.meshPacket ⟨0, by decide⟩ (some (.north, ⟨⟨0, by decide⟩, .unicast ⟨1, by decide⟩, 0, 0, false, false⟩))
    .north true).wf = false := by decide
theorem test_wf_cause : (Instr.hardwareFault none 0x80).wf = false ∧ (Instr.hardwareFault (some ⟨0, by decide⟩) 0x87).wf = false := by decide
theorem test_wf_recovery (l : List Byte) (h : 0x400_0000 < l.length) : (Instr.recoveryWrite l).wf = false := by simpa [Instr.wf] using h
theorem test_wf_ddr : (Instr.ddrRead 1 .clean .other).wf = false ∧ (Instr.ddrWrite 1 (Vector.replicate 64 0) 0).wf = false ∧
    (Instr.patrolScrub 1 .clean).wf = false := by decide
theorem test_wf_codeword (w : Codeword) (h : w.corrected = 16) : (Instr.codeword 0 0 w).wf = false := by simp [Instr.wf, h]
/-- A frame with no payload. -/
def frame0 : Frame := ⟨7, 1, false, 1, 0, 0, 0, 0, 0, 0, 0, 0, [], none⟩
theorem test_wf_frames :
    let h (ago : Nat) : RxHeader := ⟨⟨0, 0, false, false, 0, 0⟩, ago⟩
    let f := { frame0 with nblk := 129 }
    (Instr.dataFrame 0 0 (h 3000) true f).wf = false ∧ (Instr.dataFrame 0 0 (h 0) true frame0).wf = false ∧ (Instr.controlFrame 0 0 (h 0) true).wf = false ∧ (Instr.transportData f).wf = false ∧ (Instr.graftRelay 0 0 f).wf = false ∧
    (Instr.noroute [] { frame0 with kind := 5 }).wf = false ∧ (Instr.noroute (List.replicate 48 0) frame0).wf = false ∧ (Instr.discoveryFrame 0 1 []).wf = false := by decide
theorem test_wf_join : (Instr.join ⟨[], 0, 0, 0, 0⟩).wf = false ∧ (Instr.confirm ⟨[], 0, 0, 0, 0⟩).wf = false := by decide
theorem test_wf_stripe (m : StripeMsg) (h : 0x400_0000 < m.bytes.length) : (Instr.stripe m).wf = false := by simpa [Instr.wf] using h
theorem test_wf_inv (m : InvMsg) (x : InvCopy) (h : m.copies = [x]) (r : 32 ≤ x.rank) : (Instr.inv m).wf = false := by simpa [Instr.wf, h] using r
theorem test_wf_spdm : (Instr.unsupportedRequest 0x84).wf = false ∧ (Instr.challenge 0 []).wf = false ∧
    (Instr.getMeasurements 1 true []).wf = false := by decide
theorem test_wf_ethernet : (Instr.ethRxFrame 0 [] true 0 0).wf = false ∧ (Instr.ringTailWrite 4 1 0).wf = false ∧
    (Instr.ringSizeWrite 4 1 0).wf = false ∧ (Instr.cageResetRelease 4).wf = false := by decide
theorem test_wf_registers : (Instr.pmbusUnsupported 0x01 false).wf = false ∧ (Instr.registerWrite 2 0).wf = false ∧
    (Instr.failedAccess 0 false).wf = false := by decide

/-! ### The machine as a whole -/

/-- The outcome is a next state. -/
def isNext (o : Host.Outcome State Fault Refusal) : Bool := match o with
  | .next _ => true
  | _ => false

theorem next_of {o : Host.Outcome State Fault Refusal} (h : isNext o = true) : ∃ t, o = .next t := by
  cases o <;> simp_all [isNext]

theorem wit_StepRunsTheFrontCommand : { s0 with pending := [.moduleReset] }.pending = .moduleReset :: [] ∧ s0.pending = [] := ⟨rfl, rfl⟩
theorem wit_StepKeepsTheInvariant : ∃ t, s0.Inv ∧ step { s0 with pending := [.nop p0 0] } = .next t :=
  let ⟨t, h⟩ := next_of (o := step { s0 with pending := [.nop p0 0] }) (by decide +kernel); ⟨t, s0_inv, h⟩
theorem wit_OnlyUnfittedDdrFaults : exec (.ddrRead 0x7FFF_FFFF_FFC0 .clean .other) s0 = .fault .notFittedDdr := rfl
theorem wit_BlocksRestUnpowered : needsPower (.ethRun 0 1) = true ∧
    { s0 with standby := { s0.standby with inReset := true } }.powered = false := ⟨rfl, rfl⟩
theorem wit_CommandsKeepQueuePartAndFuses : ∃ t, exec (.svnCommit 8) { s0 with nv := { s0.nv with owner := some [] } } = .next t :=
  next_of (by decide +kernel)

/-! ### Tile programs -/

/-- The tile with registers 1 to 4. -/
def regTile (a b c d : W64) : Tile := { tile0 with regs := Tile.reset.regs |>.set 1 a |>.set 2 b |>.set 3 c |>.set 4 d }
def s1 : State := stateOf (regTile 0x40 0x20 5 7)
theorem s1_inv : s1.Inv := inv_of (by decide +kernel)
theorem s1_ready : s1.ready p0 [1, 2, 3, 4] := ready_of (by decide +kernel)
theorem ready_less {s : State} {p : TileId} {l m : List (BitVec 5)} (h : s.ready p l) (k : m ⊆ l) : s.ready p m :=
  ⟨h.1, h.2.1, fun r hr => h.2.2 r (k hr)⟩

theorem wit_AluWritesTheTablesResult : s1.Inv ∧ (7 : BitVec 5).toNat < 16 ∧ s1.ready p0 [1, 2, 3] ∧ s1.ready p0 [1, 2] ∧
    (63 : BitVec 32).toNat < 64 := by
  and_intros <;> first | decide +kernel | exact inv_of (by decide +kernel)
theorem wit_ScalarRegistersAndConstants : s1.Inv ∧ s1.ready p0 [] ∧ s1.ready p0 [1] ∧ s1.pcLegal (s1.tile p0).pc 16 = true ∧
    s1.job = some job0 ∧ (9 : BitVec 5).toNat ≤ 9 := by
  and_intros <;> first | decide +kernel | exact inv_of (by decide +kernel)
theorem wit_BranchesSetTheirTarget : s1.Inv ∧ s1.ready p0 [1, 2] ∧ s1.ready p0 [1, 0] ∧ s1.pcLegal (s1.tile p0).pc 16 = true ∧
    BrRule 1 ((s1.tile p0).reg 1) ((s1.tile p0).reg 2) ∧ ¬ BrRule 0 ((s1.tile p0).reg 1) ((s1.tile p0).reg 2) ∧
    ¬ BrRule 6 ((s1.tile p0).reg 1) ((s1.tile p0).reg 0) :=
  ⟨s1_inv, ready_less s1_ready (by simp), ready_of (by decide +kernel), by decide +kernel,
    (by change (s1.tile p0).reg 1 ≠ (s1.tile p0).reg 2; decide +kernel),
    (by change ¬ (s1.tile p0).reg 1 = (s1.tile p0).reg 2; decide +kernel),
    (by change ¬ ((s1.tile p0).reg 1).toNat % 2 ^ 32 = 0xFFFFFFFF; decide +kernel)⟩
theorem wit_LoadsAndStoresReachTheirBytes : s1.Inv ∧ s1.ready p0 [3, 1] ∧ (s1.tile p0).smemReady ∧
    s1.meetsCounter 0x42 2 = false ∧
    ldStAddr s1 p0 false ((s1.tile p0).reg 1) 0x27FFFB8 3 = some (sramBase 0 + 0x27FFFF8) ∧
    ldStAddr s1 p0 false ((s1.tile p0).reg 1) 0x27FFFC0 0 = none ∧ ldStAddr s1 p0 true ((s1.tile p0).reg 1) 1 1 = none ∧
    ldStAddr s1 p0 true ((s1.tile p0).reg 1) 2 1 = some 0x42 := by
  and_intros <;> first | exact inv_of (by decide +kernel) | exact (queues_of (by decide +kernel)).1 | decide +kernel

def sig (g : SignalTarget) (sent : Bool) : OutSignal := ⟨g, 3, sent, 0⟩
def sSig (g : SignalTarget) (sent : Bool) : State := stateOf { regTile 0 1 0x40 7 with signals := [sig g sent] }
theorem wit_SignalsReachTheirTarget : s1.Inv ∧ ((sSig (.tally p0 63) true).tile p0).smemFull = false ∧ (sSig (.tally p0 63) true).Inv ∧ (sSig (.tally p0 63) true).ready p0 [1, 2, 3, 4] ∧
    (s1.tile p0).reg 1 = 0x40 ∧ (0x40 : Nat) % 8 = 0 ∧ 0x48 ≤ s1.part.ddrEnd ∧ (0 : Nat) < 2048 ∧ s1.l2p[0]? = some p0 ∧ s1.inSet p0 = true ∧
    s1.l2p[1]? = some p1 ∧ s1.inSet p1 = false ∧ s1.l2p[7]? = none ∧ (7 : Nat) % 8 ≠ 0 ∧
    ((sSig (.tally p0 63) true).tile p0).signals = [sig (.tally p0 63) true] ∧
    (sSig (.memory 0x40) false).Inv ∧ ((sSig (.memory 0x40) false).tile p0).busyBefore 0 = false ∧
    (sSig (.memory 0x40) true).Inv ∧ (∀ c ∈ ((sSig (.memory 0x40) true).tile p0).claims, 0 ≤ c.claimAt) ∧
    (sSig (.memory 0x40) true).poisonedLines ((List.range 8).map (0x40 + ·)) = [] ∧
    ((sSig (.memory 0x40) true).tile p0).smemBefore 0 = false ∧ (sSig (.memory 0x40) true).meetsCounter 0x40 8 = false ∧
    sig (.memory 0x40) false ∉ ([] : List OutSignal) ∧
    (sSig (.host 0) true).Inv ∧ (sSig (.host 0) true).launch.completed = false := by
  and_intros <;> first | decide +kernel | exact inv_of (by decide +kernel)

def sBusy : State := stateOf { regTile 0 1 0x40 7 with portWork := [0] }
def sHeld : State := stateOf { regTile 0 1 0x40 7 with held := [⟨0, 5, 1, 0x800, 0⟩, ⟨0, 6, 2, 0x900, 0⟩] }
theorem wit_FenceHaltAndWaitEnd : s1.Inv ∧ s1.ready p0 [] ∧ (∀ k, k < 6 → (s1.tile p0).queueBusy k = false) ∧ (s1.tile p0).held = [] ∧
    sBusy.Inv ∧ sBusy.ready p0 [] ∧ (16 : BitVec 6).getLsbD 4 = true ∧ (sBusy.tile p0).queueBusy 4 = true ∧ (sBusy.tile p0).held = [] ∧
    sHeld.Inv ∧ sHeld.ready p0 [] ∧ (sHeld.tile p0).held ≠ [] ∧
    s1.ready p0 [1] ∧ 0 ≤ ((s1.tile p0).tally 5 - 0).toInt ∧ ((s1.tile p0).tally 5 - 1).toInt < 0 := by
  and_intros <;> first | decide +kernel | exact inv_of (by decide +kernel)

/-- List 0 with C = 5 and L = 7. -/
def listMem : List Host.Cell := [(0x30000, 5), (0x30004, 7)]
def sClaim (granted : Option (List W32)) (held : List HeldItem := []) : State :=
  { stateOf { regTile 0x40 1 0x40 6 with claims := [⟨0, false, 5, 0x80, 0x800, 1, granted⟩], held := held } with mem := listMem }
theorem wit_ClaimsAreGrantedInOrder : (sClaim none).Inv ∧ (sClaim none).ready p0 [4, 1] ∧ (sClaim none).listEntry 0 = some (job0.lists[0]) ∧
    ((sClaim none).tile p0).smemFull = false ∧ (∀ g ∈ ((sClaim none).tile p0).signals, g.target.isMemory = true → 1 ≤ g.issueNo) ∧
    ((sClaim none).tile p0).smemBefore 1 = false ∧ (job0.lists[0]).pair = false ∧ ((sClaim none).tile p0).unentered + 1 ≤ 2 ∧ ((sClaim none).tile p0).reg 1 = 0x40 ∧
    ((sClaim none).tile p0).claims[0]? = some ⟨0, false, 5, 0x80, 0x800, 1, none⟩ ∧
    (sClaim none).poisonedLines ((List.range 8).map (0x30000 + ·)) = [] ∧ (sClaim none).listC (job0.lists[0]) < (sClaim none).listL (job0.lists[0]) ∧
    (sClaim none).listEntry 9 = none ∧ (∀ e, (sClaim none).listEntry 9 = some e → e.pair ≠ false) ∧
    2 < ((sClaim none [⟨0, 5, 1, 0x800, 0⟩]).tile p0).unentered + 1 ∧
    (sClaim (some [5])).Inv ∧ ((sClaim (some [5])).tile p0).claims[0]? = some ⟨0, false, 5, 0x80, 0x800, 1, some [5]⟩ ∧
    0x20000 + 64 * 5 + 64 ≤ (sClaim (some [5])).part.ddrEnd ∧ (sClaim (some [5])).recordAsArmed 0 (0x20000 + 64 * 5) = true ∧
    (sClaim (some [5])).poisonedLines ((List.range 64).map (0x20000 + 64 * 5 + ·)) = [] := by
  and_intros <;> first | decide +kernel | exact inv_of (by decide +kernel)

def item : HeldItem := ⟨0, 7, 1, 0x800, 0⟩
def sMark (st : SeqState) (ask : Bool) (answer : Option Bool) (wrote : Nat) : State :=
  { stateOf { regTile 0x40 1 0x40 6 with held := [item], state := st, enterRequested := ask, enterAnswer := answer, writeAt := wrote } with
    mem := listMem }
theorem wit_MarksEnterOrRevoke :
    (sMark .issuing false none 0).Inv ∧ (sMark .issuing false none 0).ready p0 [] ∧ ((sMark .issuing false none 0).tile p0).held = [item] ∧
    ((sMark .issuing false none 0).tile p0).claims = [] ∧ ((sMark .issuing false none 0).tile p0).writeAt ≤ 0 ∧
    (sMark .issuing false none 3).Inv ∧ (sMark .issuing false none 3).ready p0 [] ∧ max 0 item.claimAt < ((sMark .issuing false none 3).tile p0).writeAt ∧
    (sClaim none).ready p0 [] ∧ ((sClaim none).tile p0).claims ≠ [] ∧
    (sMark .atMark true none 0).Inv ∧ ((sMark .atMark true none 0).tile p0).enterRequested = true ∧
    (sMark .atMark true none 0).listEntry item.list = some (job0.lists[0]) ∧ ((sMark .atMark true none 0).tile p0).smemBefore 1 = false ∧
    (sMark .atMark true none 0).poisonedLines ((List.range 8).map (0x30000 + ·)) = [] ∧
    (sMark .atMark true (some true) 0).Inv ∧ ((sMark .atMark true (some true) 0).tile p0).enterAnswer = some true ∧
    (sMark .atMark true (some false) 0).Inv ∧ ((sMark .atMark true (some false) 0).tile p0).enterAnswer = some false ∧
    (∀ k, ((sMark .atMark true (some false) 0).tile p0).rslot k = none) ∧ (job0.lists[0]).done ≠ 0 ∧ [item].length < 2 ^ 32 ∧
    (sMark .atMark true (some false) 0).poisonedLines ((List.range 8).map (0x30040 + ·)) = [] := by
  and_intros <;> first | decide +kernel | exact inv_of (by decide +kernel)

theorem wit_RevokeAndSetTheLimit : (sClaim none).Inv ∧ (sClaim none).ready p0 [4, 1] ∧ (sMark .issuing false none 0).Inv ∧
    (sMark .issuing false none 0).ready p0 [4, 1] ∧ ((sMark .issuing false none 0).tile p0).smemReady ∧
    (sMark .issuing false none 0).listEntry 0 = some (job0.lists[0]) ∧
    (sMark .issuing false none 0).poisonedLines ((List.range 8).map (0x30000 + ·)) = [] ∧ (sClaim none).listEntry 0 = some (job0.lists[0]) ∧
    (job0.lists[0]).noRevoke = false ∧ (sClaim none).poisonedLines ((List.range 8).map (0x30000 + ·)) = [] ∧
    (sClaim none).listEntry 1 = some (job0.lists[1]) ∧ (job0.lists[1]).noRevoke = true ∧ (sClaim none).listEntry 9 = none := by
  and_intros <;> first | exact inv_of (by decide +kernel) | exact (queues_of (by decide +kernel)).1 | decide +kernel

/-- Chapter 05: REVOKE with bound 1,530 at C = 1,540 answers T = 1,540 and sets L to 1,530. -/
theorem test_revoke :
    let s : State := { s1 with mem := [(0x30000, 4), (0x30001, 6), (0x30005, 8)] }
    let e : ListEntry := job0.lists[0]
    s.listC e = 1540 ∧ s.listL e = 2048 ∧ (s.revokeList e 1530).1 = 1540 ∧ (s.revokeList e 1530).2.listL e = 1530 := by decide +kernel

theorem wit_UnassignedWordsFault : s1.ready p0 [1, 2, 3] ∧ 16 ≤ (31 : BitVec 5).toNat ∧ (15 : BitVec 5).toNat < 16 ∧ (1 : BitVec 38) ≠ 0 ∧
    (0xFC30_0000_0000_0000#64).toNat / 2 ^ 58 = 0x3F ∧ 3 ≤ (0xFC30_0000_0000_0000#64).toNat / 2 ^ 52 % 64 ∧
    (0x6C00_0000_0000_0000#64).toNat / 2 ^ 58 = 0x1B ∧ (0xFA00_0000_0000_0000#64).toNat / 2 ^ 58 = 0x3E ∧
    4 ≤ (0xFA00_0000_0000_0000#64).toNat / 2 ^ 55 % 8 := by
  and_intros <;> decide +kernel

/-- A launch with layer formats whose tile has open claims and waiting accesses. -/
def sWaits (claims : List OutClaim) (waiting : List Waiting) : State :=
  stateOf { regTile 1 0 0x40 6 with claims := claims, waiting := waiting } { job0 with layerFmt := 0x40000, nlayer := 2 }
/-- A waiting LFMT. -/
def waiting0 : Waiting := ⟨.lfmt p0 6 7 0, false, some 6, [], [], Tile.reset.regs, Tile.reset.handles, 0x100, 0⟩
/-- An ALU word with a nonzero reserved field. -/
def badAlu : TileOp := opAlu p0 1 2 3 0 1 s1
theorem wit_FailingCheckStopsTheLaunch : s1.Inv ∧ tileOp (.alu p0 1 2 3 0 1) s1 = some badAlu ∧ s1.looksAt badAlu ∧
    (badAlu.checks.find? fun c => c.bad && !(c.late && (s1.tile p0).mustWait badAlu)).map (·.cause) = some 0x02 ∧
    s1.inSet badAlu.p = true := by
  and_intros <;> first | decide +kernel | exact inv_of (by decide +kernel) | rfl
/-- A pending s4; an LFMT behind an open claim; a full SMEM queue. -/
def sPend : State := sWaits [⟨0, false, 1, 0x80, 0x800, 1, none⟩] []
def sBehind : State := sWaits [⟨0, false, 5, 0x80, 0x800, 0, none⟩] []
def sFull : State := sWaits [] (List.replicate 16 waiting0)
theorem wit_SequencerHoldsOrFaultsFirst :
    let bad := stateOf { tile0 with pc := 0x104 }
    let off := stateOf { tile0 with state := .halted }
    let last := stateOf { tile0 with pc := 0xFFF8 }
    tileOp (.alu p0 1 2 3 0 0) sPend = some (opAlu p0 1 2 3 0 0 sPend) ∧ (sPend.tile p0).state = .issuing ∧
    sPend.pcLegal (sPend.tile p0).pc 8 = true ∧ (1 : BitVec 5) ∈ (opAlu p0 1 2 3 0 0 sPend).reads ∧ (sPend.tile p0).isPending 1 = true ∧
    sBehind.Inv ∧ (opLfmt p0 1 2 0 sBehind).entry.isSome = true ∧ tileOp (.lfmt p0 1 2 0) sBehind = some (opLfmt p0 1 2 0 sBehind) ∧
    sBehind.looksAt (opLfmt p0 1 2 0 sBehind) ∧ (∀ c ∈ (opLfmt p0 1 2 0 sBehind).checks, c.bad = false) ∧
    (opLfmt p0 1 2 0 sBehind).held = false ∧ sBehind.queueFull (opLfmt p0 1 2 0 sBehind) = false ∧
    (sBehind.tile p0).mustWait (opLfmt p0 1 2 0 sBehind) = true ∧ sFull.looksAt (opLfmt p0 1 2 0 sFull) ∧
    (∀ c ∈ (opLfmt p0 1 2 0 sFull).checks, c.bad = false) ∧ sFull.queueFull (opLfmt p0 1 2 0 sFull) = true ∧
    tileOp (.nop p0 0) bad = some (opNop p0 0 bad) ∧ (bad.tile p0).state = .issuing ∧ bad.pcLegal (bad.tile p0).pc 8 = false ∧
    (off.tile p0).state ≠ .issuing ∧ tileOp (.halt p0 0) sBusy = some (opHalt p0 0 sBusy) ∧ sBusy.ready p0 [] ∧
    (∀ c ∈ (opHalt p0 0 sBusy).checks, c.bad = false) ∧ (opHalt p0 0 sBusy).held = true ∧
    last.ready p0 [1] ∧ last.pcLegal (last.tile p0).pc 16 = false := by
  and_intros <;> first | decide +kernel | exact inv_of (by decide +kernel) | rfl

/-! ### Numbers -/

theorem wit_FiniteArithmeticIsExact : (FVal.fin true 3 (-5)).isFinite = true ∧ (FVal.fin false 0 7).isFinite = true := by decide
theorem wit_FiniteCodesRoundTrip : (0xFFFFFFFF : Nat) < 2 ^ 32 ∧ (0x7E : Nat) < 2 ^ (1 + Fmt.e4m3.ebits + Fmt.e4m3.fbits) ∧
    (Fmt.e4m3.decode 0x7E).isFinite = true := by decide
theorem wit_RoundingIsNearest : (FVal.fin false 3 (-9)).isFinite = true ∧ |(FVal.fin false 3 (-9)).rat| ≤ Fmt.bf16.largest.rat ∧
    (Fmt.bf16.decode 0x3C00).isFinite = true := by
  refine ⟨by decide, ?_, by decide⟩
  have h : Fmt.bf16.largest = .fin false 255 120 := by decide +kernel
  rw [h]; norm_num [FVal.rat, abs_le]

/-! ### Arrays, vectors, streams -/

/-- A descriptor of rank 2 over its own MiB: type, WR, SPACE 1, base, extents and row stride. -/
def desc2 (ty : BitVec 5) (wr space1 : Bool) (base n0 n1 : Nat) (row : Int) (pair : Bool := false) : Desc :=
  { rank := 2, etype := ty, wr := wr, pair := pair, padWrite := false, space1 := space1, fold := 1, brows := 0, base := base,
    rbase := base, rlen := 0x100000, sbase := 0, half := 0x80000, win := [], padv := 0, size := #v[n0, n1, 0, 0, 0, 0],
    padlo := #v[0, 0, 0, 0, 0, 0], padhi := #v[0, 0, 0, 0, 0, 0], stride := #v[0, row, 0, 0, 0, 0] }

/-- Handles 1: a BF16 source in SRAM; 2: a BF16 destination in SRAM; 4: a binary32 destination in SRAM; 5: a BF16 source in DDR; 6: a
pair; 7: a BF16 destination in DDR. -/
def handles0 : Vector Handle 16 :=
  (Vector.replicate 16 Handle.reset) |>.set 1 ⟨some (desc2 0x0C false false 0x100000 64 64 128), false⟩
    |>.set 2 ⟨some (desc2 0x0C true false 0x200000 64 64 128), false⟩
    |>.set 4 ⟨some (desc2 0x0E true false 0x300000 2 64 8), false⟩
    |>.set 5 ⟨some (desc2 0x0C false true 0x1000000 64 64 128), false⟩
    |>.set 6 ⟨some (desc2 0x0C true false 0x400000 64 64 128 true), false⟩
    |>.set 7 ⟨some (desc2 0x0C true true 0x2000000 64 64 128), false⟩

/-- A drain record with OUT_EN and BF16. -/
def cfgBf16 : Vector Byte 32 := (Vector.replicate 32 0).set 0 0x8C
def block22 : Stationary := ⟨0x0C, 2, 2, [[.fin false 1 0, .fin false 2 0], [.fin true 1 0, .nan]]⟩

/-- Registers 1: rows 2 at 0; 2: columns 2 at 0. -/
def arrTile (cfg : Vector Byte 32) : Tile :=
  { regTile 0x2_00000000 2 0 0 with handles := handles0, stationary := some block22, adapter := some block22, mainCfg := cfg, adpCfg := cfg }
def sArr : State := stateOf (arrTile cfgBf16)
theorem sArr_inv : sArr.Inv := inv_of (by decide +kernel)

theorem wit_LoadsReplaceTheirBlock : sArr.Inv ∧ sArr.poisoned = [] ∧ ((sArr.tile p0).handle 1).desc = some (desc2 0x0C false false 0x100000 64 64 128) ∧
    sArr.issues (opXload p0 1 0 0 2 2 0 sArr) ∧ sArr.issues (opXloadt p0 1 0 0 2 2 0 sArr) ∧ sArr.issues (opAload p0 1 0 0 32 32 0 sArr) := by
  and_intros <;> first | decide +kernel | exact inv_of (by decide +kernel)

/-- The same tile with a write slot armed for a fabric send of binary32 blocks, and a drain record for it. -/
def sFab : State :=
  stateOf { arrTile ((Vector.replicate 32 0).set 0 0x8E) with
    wslots := (Vector.replicate 8 WSlot.idle).set 3 (.fabric ⟨0, 0, 0x0E, 0, 4⟩) }
theorem wit_MultipliesStoreOnlyTheirOutput : sArr.Inv ∧ sArr.poisoned = [] ∧ sArr.issues (opMmul p0 1 0 2 0 0 1 0 0 0 0 sArr) ∧
    sArr.issues (opAmul p0 1 0 2 0 0 2 0 0 0 0 sArr) ∧ sArr.issues (opDxmul p0 1 0 2 0 0 1 0 0 0 false 0 0 sArr) ∧
    sArr.issues (opDwmul p0 1 0 2 0 0 1 0 0 0 false 0 sArr) ∧ sFab.Inv ∧ sFab.issues (opDwmul p0 1 0 2 3 0 1 0 0 0 true 0 sFab) := by
  and_intros <;> first | decide +kernel | exact inv_of (by decide +kernel)

/-- MMUL of the block against a row of ones and zeros: y[0] = 1·1 + 2·0 = 1 in BF16 is 0x3F80, and y[1], which meets a NaN times zero,
is the NaN 0x7FC0. -/
theorem test_mmul : (match exec (.mmul p0 1 0 2 0 0 1 0 0 0 0) { sArr with mem := [(sramBase 0 + 0x100000, 0x80), (sramBase 0 + 0x100001, 0x3F)] } with
    | .next t => (t.rdNat (sramBase 0 + 0x200000) 2, t.rdNat (sramBase 0 + 0x200080) 2)
    | _ => (0, 0)) = (0x3F80, 0x7FC0) := by decide +kernel

def recA : StatRec := { StatRec.empty with hbase := 5, zeros := 3, count := 3 }
def sStat : State := stateOf { arrTile cfgBf16 with statMerges := [⟨1, false, 0x80000, recA⟩], mainStat := recA }
def sStat5 : State := { sStat with mem := [(0x80054, 5)] }
theorem wit_DrainRecordsFollowTheirInstructions : sStat.Inv ∧ sStat.poisoned = [] ∧ sStat.issues (opDcfg p0 0 0 sStat) ∧
    sStat.issues (opAcfg p0 0 0 sStat) ∧ sStat.issues (opDstat p0 0 true true false 0 sStat) ∧ sStat.issues (opDstat p0 0 false true true 0 sStat) ∧
    (sStat.tile p0).statMerges = [⟨1, false, 0x80000, recA⟩] ∧ (StatRec.ofImage (sStat.rdBytes 0x80000 96)).hbase ≠ recA.hbase ∧
    sStat5.Inv ∧ (StatRec.ofImage (sStat5.rdBytes 0x80000 96)).hbase = recA.hbase ∧
    (StatRec.ofImage (sStat5.rdBytes 0x80000 96)).binw = recA.binw := by
  and_intros <;> first | decide +kernel | exact inv_of (by decide +kernel)

def jobFmt : Job := { job0 with layerFmt := 0x40000, nlayer := 2 }
theorem wit_LayerFormatReadsItsEntry : (stateOf (regTile 1 2 0 0) jobFmt).Inv ∧ (stateOf (regTile 1 2 0 0) jobFmt).ready p0 [3, 1] ∧
    jobFmt.layerFmt ≠ 0 ∧ (((stateOf (regTile 1 2 0 0) jobFmt).tile p0).reg 1).toNat % 4096 < jobFmt.nlayer ∧
    jobFmt.nlayer ≤ (((stateOf (regTile 1 2 0 0) jobFmt).tile p0).reg 2).toNat % 4096 ∧ s1.job = some job0 ∧ job0.layerFmt = 0 := by
  and_intros <;> first | decide +kernel | exact inv_of (by decide +kernel)

/-- Chapter 06: micro-program 5 gates SiLU(a)·b. -/
def mprog5 : List Byte := leBytes 0 4 ++ leBytes 32 2 ++ List.replicate 1610 0 ++ [3, 2] ++ List.replicate 62 0 ++
  [0x93, 0, 0, 0, 0x82, 0x80, 0, 0, 2, 0x48, 0, 0] ++ List.replicate 244 0
theorem test_microProgram : mpDefined mprog5 5 = true ∧ mpValid mprog5 5 = true ∧
    (mpRecord mprog5 5).ops.map (fun o => (o.fn, o.d, o.a, o.b)) = [(19, 2, 0, 0), (2, 2, 0, 2), (2, 0, 2, 1)] := by decide +kernel

def sVec : State := stateOf (regTile 0x1_00001000 0x1_00002000 0x1_00003000 0x1_00004000) { job0 with mprog := some mprog5 }
theorem sVec_inv : sVec.Inv := inv_of (by decide +kernel)
theorem wit_VectorInstructionsStoreOnlyTheirResults : sVec.Inv ∧ sVec.poisoned = [] ∧ sVec.issues (opVop p0 1 2 3 0 0x0E 3 31 0 sVec) ∧
    sVec.issues (opVter p0 1 2 3 4 0 0x0C 0 31 0 sVec) ∧ sVec.issues (opVmp p0 1 2 3 0 5 0x0C 0x0C 0 31 0 sVec) ∧
    sVec.issues (opVrand p0 1 2 2 31 0 sVec) ∧ sVec.etype 0x06 = some (.mx (.flt Fmt.e4m3) 8) ∧
    sVec.issues (opVcvt p0 1 2 4 0x0C 0x06 3 31 0 sVec) ∧
    (stateOf (regTile 0x1000 0x1_00002000 0 0)).issues (opVred p0 1 2 0 0 0 0x0C 31 0 (stateOf (regTile 0x1000 0x1_00002000 0 0))) := by
  and_intros <;> first | decide +kernel | exact inv_of (by decide +kernel)
theorem wit_VectorElementsAreTheFunctionOfTheirSources : sVec.Inv ∧ sVec.poisoned = [] ∧ sVec.etype 0x0E = some (.plain (.flt Fmt.b32) 32) ∧
    sVec.issues (opVop p0 1 2 3 0 0x0E 0 31 0 sVec) ∧
    overlapsOther (vecOperand ((sVec.tile p0).reg 1)) 32 (vecOperand ((sVec.tile p0).reg 2)) 32 32 = false ∧
    overlapsOther (vecOperand ((sVec.tile p0).reg 1)) 32 (vecOperand ((sVec.tile p0).reg 3)) 32 32 = false ∧
    (vopElem (.plain (.flt Fmt.b32) 32) 0 .rne 0 0 0).isSome = true := by
  and_intros <;> first | decide +kernel | exact inv_of (by decide +kernel)

theorem wit_GeneratorsMoveAndRestore : s1.Inv ∧ s1.poisoned = [] ∧ s1.ready p0 [1] ∧ lo32 ((s1.tile p0).reg 1) % 64 = 0 ∧
    lo32 ((s1.tile p0).reg 1) + 2048 ≤ 0x02800000 ∧
    ∃ t, exec (.gsave p0 1 0 0) s1 = .next t ∧ { s1 with mem := t.mem }.Inv := by
  obtain ⟨t, h⟩ := next_of (o := exec (.gsave p0 1 0 0) s1) (by decide +kernel)
  have k : s1.Keeps t := State.Keeps.run (x := opGsave p0 1 0 0 s1) (fun u => State.Keeps.wrBytes u _ _) h
  exact ⟨s1_inv, rfl, ready_less s1_ready (by simp), by decide +kernel, by decide +kernel, t, h,
    ⟨(k.2 s1_inv).mem, s1_inv.totals, s1_inv.flash, s1_inv.tiles, s1_inv.pairs, s1_inv.map, s1_inv.routers, s1_inv.numbering⟩⟩

/-- Cells that hold bytes from an address on. -/
def cells (a : Nat) (l : List Byte) : List Host.Cell := (l.zipIdx.filter fun x => x.1 != 0).map fun x => (a + x.2, x.1)
def recordGood : List Byte := record 0x01010C03 0x10000 0x40000 64 32 4 128 4096
def recordAlias : List Byte := record 0x01010C03 0x10000 0x40000 64 32 4 128 2048
def sDesc : State := { stateOf { arrTile cfgBf16 with regs := (regTile 0x40 0x100000 0 0x2_00000002).regs.set 5 0x100000040 |>.set 6 0x140 } with
  mem := cells (sramBase 0 + 0x40) recordGood ++ cells (sramBase 0 + 0x140) recordAlias }
theorem wit_DescriptorsAndMoves : sDesc.Inv ∧ sDesc.ready p0 [1, 2, 3, 4, 5, 6] ∧ (sDesc.tile p0).claims = [] ∧ (sDesc.tile p0).signals = [] ∧ (sDesc.tile p0).waiting = [] ∧
    (match sDesc.validateRecord p0 0x40 with
      | .ok x => x.rank == 3
      | _ => false) = true ∧
    (match sDesc.validateRecord p0 0x140 with
      | .error e => e.cause == 0x46
      | _ => false) = true ∧
    ((sDesc.tile p0).handle 1).desc = some (desc2 0x0C false false 0x100000 64 64 128) ∧
    (match rebase sDesc (desc2 0x0C false false 0x100000 64 64 128) 0x100000 with
      | .ok y => y.base == 0x100000
      | _ => false) = true ∧
    ((sDesc.tile p0).handle 6).desc = some (desc2 0x0C true false 0x400000 64 64 128 true) ∧
    sDesc.issues (opSarm p0 5 2 2 0 4 0 true 7 0 sDesc) ∧ sDesc.issues (opCopy p0 1 0 7 1 0 4 0 true 0 sDesc) := by
  and_intros <;> first | decide +kernel | exact inv_of (by decide +kernel)

def window2 (d : Desc) (n0 n1 : Nat) : Window := ⟨d, 0, false, 0, 0, n0, n1⟩
def xfer : Transfer := ⟨window2 (desc2 0x0C false true 0x1000000 64 64 128) 2 2, window2 (desc2 0x0C true true 0x2000000 64 64 128) 2 2, true,
  some 4, some 9, 1⟩
def sSlot : State := { stateOf { arrTile cfgBf16 with rslots := (Vector.replicate 8 none).set 3 (some xfer) } with
  mem := [(0x1000000, 1), (0x1000002, 2), (0x1000080, 3), (0x1000082, 4)] }
theorem wit_SlotTransfersDeliver : sSlot.Inv ∧ sSlot.poisoned = [] ∧ (sSlot.tile p0).rslots[(3 : SlotId)] = some xfer ∧
    sSlot.etype xfer.src.desc.etype = some (.plain (.flt Fmt.bf16) 16) ∧ sSlot.readsPending p0 (.plain (.flt Fmt.bf16) 16) xfer = false ∧
    (xfer.turned = true → (sSlot.tile p0).turnBefore xfer.armedAt = false) ∧
    (∀ a ∈ xfer.dst.bytes p0 (.plain (.flt Fmt.bf16) 16), sSlot.meetsCounter a 1 = false) ∧ xfer.dst.desc.wr = true ∧ (xfer.dst.bytes p0 (.plain (.flt Fmt.bf16) 16)).Nodup ∧
    (∀ a ∈ xfer.src.readBytes p0 (.plain (.flt Fmt.bf16) 16), a ∉ xfer.dst.bytes p0 (.plain (.flt Fmt.bf16) 16)) ∧
    xfer.dst.len0 = (if xfer.turned then xfer.src.len1 else xfer.src.len0) ∧
    xfer.dst.len1 = (if xfer.turned then xfer.src.len0 else xfer.src.len1) ∧ xfer.dst.desc.isPad 1 1 = false := by
  and_intros <;> first | decide +kernel | exact inv_of (by decide +kernel)

/-- A turned transfer lands transposed, and its tally gains 1. -/
theorem test_turnedCopy : (match exec (.streamSlotComplete p0 3) sSlot with
    | .next t => ([0x2000000, 0x2000002, 0x2000080, 0x2000082].map fun a => t.rdNat a 2, (t.tile p0).tally 9)
    | _ => ([], 0)) = ([1, 3, 2, 4], 1) := by decide +kernel


/-! ### Routing, pools, updates -/

/-- One layer of 8 experts, NC 4, K 2, CF 20, with its state at 0x60000. -/
def route0 : List Byte := leBytes 0 4 ++ leBytes 1 2 ++ [0, 0] ++ leBytes 0x60000 8 ++ List.replicate 1040 0 ++ leBytes 0 8 ++ leBytes 8 2 ++
  [0, 2, 20, 1] ++ List.replicate 18 0
/-- A call of two tokens, with its choice records. -/
def callMem : List Host.Cell := cells 0x40000 (leBytes 0 4 ++ leBytes 2 4 ++ leBytes 0x50000 8 ++ leBytes 0x51000 8 ++ leBytes 0x52000 8 ++
    leBytes 0x53000 8 ++ leBytes 1 4 ++ leBytes 64 4 ++ leBytes 0 4 ++ leBytes 1 4) ++
  cells 0x50000 (leBytes 0 4 ++ [0, 0, 4, 0, 0, 0, 1, 0, 2, 0, 3, 0]) ++ cells 0x50040 (leBytes 1 4 ++ [0, 0, 4, 0, 0, 0, 1, 0, 2, 0, 3, 0])
def sRoute : State :=
  { stateOf { arrTile cfgBf16 with regs := (regTile 0x1_00000000 0 0x40000 1).regs } { job0 with route := some route0 } with
    mem := callMem, rtu := { Rtu.reset with calls := [⟨p0, 1, 0x40000, true, 5, 0x100, 0⟩] } }
theorem wit_RoutingSelectsAndAssigns : Route.nc layer12 ≤ Route.nexp layer12 ∧ ([117, 33, 402, 590] : List Nat).Nodup ∧
    ∀ e ∈ ([117, 33, 402, 590] : List Nat), e < 640 := by decide +kernel
theorem wit_RoutingInstructionsStoreOnlyTheirResults : sRoute.Inv ∧ sRoute.poisoned = [] ∧
    Route.ncc (Route.layer sRoute.routeImage (sRoute.callBlock 0x40000).layer) ≤ 2 ∧ sRoute.issues (opRsel p0 1 0 0 1 3 0 sRoute) ∧
    sRoute.issues (opRassign p0 3 true 5 0 sRoute) ∧ sRoute.issues (opGather p0 1 0 2 0 0 0 3 0 4 true 0 0 sRoute) ∧
    sRoute.issues (opScatter p0 1 0 2 0 0 0 3 0 4 true 1 0 sRoute) ∧ sRoute.issues (opCombine p0 1 0 2 0 0 0 3 0 4 true 2 0 sRoute) ∧
    sRoute.issues (opGgrad p0 1 0 4 0 1 1 3 0 4 false 0 0 sRoute) := by
  and_intros <;> first | decide +kernel | exact inv_of (by decide +kernel)
/-- The same call with ev = 0. -/
def sCount : State := { sRoute with rtu := { Rtu.reset with calls := [⟨p0, 1, 0x40000, false, 5, 0x100, 0⟩] } }
theorem wit_AssignerServesTheHeadCall_count : sCount.Inv ∧ sCount.poisoned = [] ∧
    let e := Route.layer sCount.routeImage 0
    let steps := (List.range (4 * Route.nexp e)).map (State.rstep (Route.stateAt sCount.routeImage) 0 0 + ·)
    (∀ x ∈ (State.callArrays e (sCount.callBlock 0x40000)).drop 1, ∀ i < x.2, x.1 + i ∉ steps) ∧ ∀ i < 16, 0x40028 + i ∉ steps := by
  and_intros <;> first | exact inv_of (by decide +kernel) | decide +kernel
theorem wit_AssignerServesTheHeadCall : sRoute.Inv ∧ sRoute.rtu.calls = [⟨p0, 1, 0x40000, true, 5, 0x100, 0⟩] ∧
    (sRoute.callBlock 0x40000).layer < Route.nlayer sRoute.routeImage ∧
    sRoute.callBad 0x40000 (Route.layer sRoute.routeImage 0) (sRoute.callBlock 0x40000) = false ∧
    ∀ t, t < (sRoute.callBlock 0x40000).t → ∃ y, sRoute.choiceOf (Route.layer sRoute.routeImage 0) (sRoute.callBlock 0x40000) t = some y := by
  refine ⟨inv_of (by decide +kernel), rfl, by decide +kernel, by decide +kernel, ?_⟩
  have h : ∀ t, t < (sRoute.callBlock 0x40000).t →
      (sRoute.choiceOf (Route.layer sRoute.routeImage 0) (sRoute.callBlock 0x40000) t).isSome = true := by decide +kernel
  exact fun t k => Option.isSome_iff_exists.1 (h t k)

theorem wit_PortsServeDdrRequests : s0.Inv ∧ s0.powered = true ∧ s0.power.shutdown = false ∧ 0x3F_FFFF_FFC0 + 64 ≤ s0.part.ddrEnd ∧ s0.isPoisoned 0x3F_FFFF_FFC0 = false ∧
    s0.launchActive = true ∧ { s0 with launch := .reset }.launchActive = false ∧ s0.part.ddrEnd < 0x7FFF_FFFF_FFC0 + 64 ∧
    (s0.ports[(0 : PortId)]).retrain = false ∧ (s0.ports.toList.filter (·.retrain)).length < 2 ∧
    (({ s0 with ports := s0.ports.set 0 { Port.reset with retrain := true } }).ports[(0 : PortId)]).retrain = true := by
  and_intros <;> first | decide +kernel | exact inv_of (by decide +kernel)

/-- A full PORT queue. -/
def sPort : State := stateOf { regTile 0 1 0x40 7 with waiting := List.replicate 16 { waiting0 with port := true } }
theorem wit_AtomIsOneReadModifyWrite : s1.Inv ∧ s1.poisoned = [] ∧ s1.ready p0 [4, 1, 2, 3] ∧ ((s1.tile p0).reg 1).toNat % 8 = 0 ∧
    ((s1.tile p0).reg 1).toNat + 8 ≤ s1.part.ddrEnd ∧ s1.portReady p0 ∧ (s1.tile p0).busyUpTo (s1.tile p0).issueNo = false ∧
    s1.meetsCounter ((s1.tile p0).reg 1).toNat 8 = false ∧ sPort.Inv ∧ sPort.ready p0 [4, 3, 2, 0] ∧ ((sPort.tile p0).reg 3).toNat % 8 = 0 ∧
    ((sPort.tile p0).reg 3).toNat + 8 ≤ sPort.part.ddrEnd ∧ sPort.portFull p0 = true ∧ ((s1.tile p0).reg 3).toNat % 8 ≠ 0 ∧
    6 ≤ (6 : BitVec 3).toNat ∧ (0 : BitVec 3) ≠ 4 ∧ (3 : BitVec 5) ≠ 0 := by
  and_intros <;> first | exact inv_of (by decide +kernel) | exact (queues_of (by decide +kernel)).2 | decide +kernel

/-- Two groups: blocks of a plain tensor, and rows of 64 elements. -/
def update0 : List Byte := leBytes 0 4 ++ leBytes 2 2 ++ [0, 0] ++ leBytes 0 8 ++ leBytes 0 8 ++ List.replicate 40 0 ++
  ([2, 0, 0x0C, 0] ++ leBytes 0 4 ++ leBytes 4 4 ++ leBytes 0 4 ++ leBytes 0x4000000 8 ++ List.replicate 104 0) ++
  ([2, 4, 0x0C, 0] ++ leBytes 64 4 ++ leBytes 9 4 ++ leBytes 0 4 ++ leBytes 0x5000000 8 ++ List.replicate 104 0)
def unit0 : UpdUnit := ⟨some (p0, 1), none, 0, 0, 0, 0, false⟩
/-- A bag block at 0x40000 of one bag with two indices; a row list at 0x41000. -/
def sPool (step : Option (List Byte)) : State :=
  { stateOf { arrTile cfgBf16 with regs := (regTile 0x40000 0x41000 1 2).regs } { job0 with update := some update0, step := step } with
    mem := cells 0x40000 (leBytes 0x42000 8 ++ leBytes 0x43000 8 ++ leBytes 0 8 ++ leBytes 2 4 ++ leBytes 1 4) ++
      cells 0x41000 (leBytes 2 4 ++ leBytes 0 4 ++ leBytes 0x44000 8) ++ [(0x42000, 3), (0x42004, 5), (0x43004, 2), (0x44000, 3), (0x44004, 5)]
    steps := { Steps.reset with units := [unit0] } }
theorem wit_PoolsAndUpdatesStoreOnlyTheirResults : (sPool none).Inv ∧ (sPool none).poisoned = [] ∧
    (sPool none).issues (opGpool p0 2 1 2 1 0 true 7 0 (sPool none)) ∧ (sPool none).issues (opGsrow p0 2 1 2 1 2 0 true 7 0 (sPool none)) ∧
    (sPool none).issues (opUpdt p0 0 3 4 0 true 7 0 (sPool none)) ∧ (sPool none).issues (opUpdt p0 1 2 1 1 false 0 0 (sPool none)) ∧
    ((sPool none).engineUnits 0).find? (fun x => (sPool none).gateClear x || (!x.checked && x.attempt == (sPool none).steps.a)) = some unit0 ∧ (sPool none).gateClear unit0 = true ∧
    (sPool (some [])).Inv ∧ ((sPool (some [])).engineUnits 0).find? (fun x => (sPool (some [])).gateClear x || (!x.checked && x.attempt == (sPool (some [])).steps.a)) = some unit0 ∧
    (sPool (some [])).gateClear unit0 = false ∧ Upd.stashLen (sPool (some [])).updImage / 64 < (sPool (some [])).stashUsed 0 +
      State.stashSize (sPool (some [])).updImage unit0.grp := by
  and_intros <;> first | decide +kernel | exact inv_of (by decide +kernel)
/-- SGD with momentum over 4 blocks of a BF16 tensor. -/
def update1 : List Byte := leBytes 0 4 ++ leBytes 1 2 ++ [0, 0] ++ leBytes 0 8 ++ leBytes 0 8 ++ List.replicate 40 0 ++
  [1, 0, 0x0C, 0] ++ leBytes 0 4 ++ leBytes 4 4 ++ leBytes 0 4 ++ leBytes 0x4000000 8 ++ leBytes 0 8 ++ leBytes 0x4020000 8 ++ leBytes 0 8 ++
  leBytes 0x4040000 8 ++ leBytes 0x4060000 8 ++ leBytes 0x4080000 8 ++ List.replicate 56 0
def sUpd : State := { stateOf tile0 { job0 with update := some update1 } with steps := { Steps.reset with units := [unit0] } }
theorem wit_UnitsUpdateByTheirFormula : sUpd.Inv ∧ sUpd.poisoned = [] ∧ sUpd.updImage = update1 ∧
    (sUpd.engineUnits 0).find? (fun x => sUpd.gateClear x || (!x.checked && x.attempt == sUpd.steps.a)) = some unit0 ∧
    sUpd.gateClear unit0 = true ∧ updGroupValid .empty sUpd.part.ddrEnd none update1 0 = true ∧
    sUpd.etype (Upd.wtype update1 0) = some (.plain (.flt Fmt.bf16) 16) ∧
    disjoint (unitAreas update1 0 0 (.plain (.flt Fmt.bf16) 16)) = true := by
  and_intros <;> first | exact inv_of (by decide +kernel) | decide +kernel
/-! ### The light path and the fabric -/

def withCombs (x : Combs) : State := { s0 with light := { s0.light with combs := x } }
def combs0 : Combs := { Combs.reset with a := .working, b := .locked }
/-- Comb A works, plane 0 runs, and its pair 1 is `x`. -/
def sPair (x : Pair) (lit : Combs := combs0) : State :=
  let s := withCombs lit
  { s with light := { s.light with planes := s.light.planes.set 0 { Plane.reset with run := true } } }.setPair 0 1 x
def upPair : Pair := { Pair.reset with state := .up, peerRx := 2, light := true, lock := true }
/-- A modulator ring that searches 20 GHz about 5,000. -/
def seeks : LightRing := { LightRing.reset with seek := some ⟨some 5000, 200⟩ }
def holdPair : Pair := { upPair with state := .hold, calm := 10 }
def cw0 : Codeword := ⟨true, 4, 0x3FF, 0, 3, 31⟩
theorem wit_PairsMoveThroughTheirStates :
    (sPair upPair).Inv ∧ (sPair upPair).powered = true ∧ ((sPair upPair).pair 0 1).state = .up ∧ (sPair upPair).lanesDark = false ∧
    (sPair .reset .reset).Inv ∧ (sPair .reset .reset).lanesDark = true ∧ 60 < max (61 : BitVec 16).toNat (0 : BitVec 16).toNat ∧
    max (60 : BitVec 16).toNat (0 : BitVec 16).toNat ≤ 60 ∧ max (15 : BitVec 16).toNat (0 : BitVec 16).toNat ≤ 15 ∧
    cw0.correctable = true ∧ cw0.colour.toNat = (32 - (1 : PairId).1) % 32 ∧ cw0.fso = 0x3FF ∧ cw0.kind = 0 ∧ cw0.rxState = 3 ∧
    ((sPair upPair).pair 0 1).lock = true ∧ (((sPair upPair).pair 0 1).recent.filter id).length < 2 ∧
    (sPair { upPair with state := .test }).Inv ∧ ((sPair { upPair with state := .test }).pair 0 1).state = .test ∧
    (sPair { upPair with state := .acquire }).Inv ∧ ((sPair { upPair with state := .acquire }).pair 0 1).state = .acquire ∧
    ((sPair { upPair with state := .acquire }).pair 0 1).lock = true ∧ ((sPair { upPair with state := .acquire }).pair 0 1).pauseLeft = 0 ∧
    ((sPair { upPair with state := .test }).pair 0 1).testCount + 1030792 ≤ 1030792 ∧
    1030792 < ((sPair { upPair with state := .test }).pair 0 1).testCount + 1030793 ∧
    (sPair holdPair).Inv ∧ ((sPair holdPair).pair 0 1).state = .hold ∧ ((sPair holdPair).pair 0 1).peerRx = 2 ∧
    max ((sPair holdPair).pair 0 1).tx.err.toNat ((sPair holdPair).pair 0 1).rx.err.toNat ≤ 15 ∧ 10 ≤ ((sPair holdPair).pair 0 1).calm ∧ ((sPair holdPair).pair 0 1).lock = true ∧
    (sPair { holdPair with calm := 9 }).Inv ∧ ((sPair { holdPair with calm := 9 }).pair 0 1).calm < 10 ∧
    (sPair { upPair with state := .out, failed := true }).Inv ∧ ((sPair { upPair with state := .out, failed := true }).pair 0 1).failed = true ∧
    ((sPair { upPair with state := .out, failed := true }).plane 0).run = true ∧
    (sPair { Pair.reset with state := .out, outMargin := true }).Inv ∧
    ((sPair { Pair.reset with state := .out, outMargin := true }).pair 0 1).outMargin = true ∧
    ((sPair { Pair.reset with state := .out, outMargin := true }).pair 0 1).light = false ∧
    (sPair .reset).Inv ∧ ((sPair .reset).pair 0 1).state = .dark ∧ ((sPair .reset).plane 0).run = true ∧
    ((sPair upPair).pair 0 1).pauseLeft = 0 ∧ ((sPair { upPair with state := .test }).pair 0 1).pauseLeft = 0 ∧
    (sPair { upPair with pauseLeft := 2 }).Inv ∧ ((sPair { upPair with pauseLeft := 2 }).pair 0 1).state = .up ∧
    1 < ((sPair { upPair with pauseLeft := 2 }).pair 0 1).pauseLeft ∧ (sPair upPair).searches 0 1 = (none, none) ∧
    (sPair { upPair with state := .acquire }).Inv ∧ (sPair { holdPair with tx := seeks }).Inv ∧
    (sPair { holdPair with tx := seeks }).searches 0 1 = (some ⟨some 5000, 200⟩, none) ∧ Search.admits ⟨some 5000, 200⟩ 6000 = false := by
  and_intros <;> first | decide +kernel | exact inv_of (by decide +kernel)

def withPlane (y : Plane) : State := { s0 with light := { s0.light with planes := s0.light.planes.set 0 y } }
def tuned : Plane := { Plane.reset with tune := Plane.reset.tune.set 1 0x00010001, tuneN := 2 }
def seeded : LightRing := { LightRing.reset with seed := some ⟨5000, 450⟩ }
/-- The pilots run, pair 1 has codeword lock, and its lock seeds say 5,000. -/
def sSeed : State := sPair { Pair.reset with lock := true, tx := seeded, rx := seeded } { combs0 with pilots := true }
def inSearch (k : Option Search) (h : BitVec 16) : Bool := k.all (·.admits h)
theorem inSearch_of {k : Option Search} {h : BitVec 16} : inSearch k h = true ↔ ∀ z, k = some z → z.admits h = true := by
  cases k <;> simp [inSearch]
theorem wit_PlanesAndCombsFollowTheirRules :
    (withPlane tuned).Inv ∧ (withPlane tuned).powered = true ∧ sSeed.Inv ∧ sSeed.light.combs.pilots = true ∧
    inSearch (sSeed.searches 0 1).1 6000 = true ∧ inSearch (sSeed.searches 0 1).2 4000 = true ∧ inSearch (sSeed.searches 0 1).1 6001 = false ∧
    (sSeed.pair 0 1).lock = true ∧ (sSeed.pair 0 1).state ≠ .test ∧ (sSeed.pair 0 1).state ≠ .up ∧
    (withPlane tuned).light.combs.combNone = false ∧ ((sPair { Pair.reset with light := true }).pair 0 1).state = .dark ∧
    ((sPair { Pair.reset with light := true }).pair 0 1).light = true ∧ s0.power.optShutdown = false ∧
    ((withPlane tuned).plane 0).ffEn = true ∧ ((withPlane tuned).plane 0).tuneValid = true ∧
    ((withPlane tuned).plane 0).run = false ∧ (1 : W32).getLsbD 0 = true ∧ (s0.plane 0).tuneValid = false ∧ (s0.plane 0).run = false ∧
    (withPlane { tuned with ffEn := false, run := true }).Inv ∧ ((withPlane { tuned with ffEn := false, run := true }).plane 0).ffEn = false ∧
    ((withPlane { tuned with ffEn := false, run := true }).plane 0).run = true ∧ (2 : W32).getLsbD 0 = false ∧
    (withCombs combs0).Inv ∧ (withCombs combs0).light.combs.spare = .locked ∧ (withCombs combs0).light.combs.combNone = false ∧
    (withCombs { combs0 with b := .locking }).light.combs.spare = .locking ∧ (withCombs { combs0 with b := .idle }).light.combs.spare = .idle ∧
    (withCombs { combs0 with b := .failed }).Inv ∧ (withCombs { combs0 with b := .failed }).light.combs.spare = .failed ∧
    (withCombs { combs0 with b := .failed }).launchActive = true ∧ (withCombs { combs0 with b := .failed }).launch.faultValid = false ∧
    (((withCombs combs0).light.combs.ref)[(3 : PairId)]).toInt - (5 : BitVec 16).toInt < 300 := by
  and_intros <;> first | decide +kernel | exact inv_of (by decide +kernel)

def sent0 : SentFrame := ⟨0, ⟨7, 1, false, 0, 1, 0, 0, 0, 0, 0, 0, 0, [], none⟩, none⟩
/-- A NAK had its one frame resent. -/
def resentPair : Pair := { upPair with unacked := [sent0], txSeq := 1, lastResend := some ⟨true, 0, 1⟩ }
theorem wit_LinkLayerTakesFramesInOrder :
    (sPair upPair).Inv ∧ (sPair upPair).powered = true ∧ ((sPair upPair).pair 0 1).clean = none ∧ ((sPair upPair).pair 0 1).unacked = [] ∧
    (sPair { upPair with clean := some 640 }).Inv ∧ ((sPair { upPair with clean := some 640 }).pair 0 1).clean = some 640 ∧ 640 < 2120 ∧
    ((sPair upPair).pair 0 1).lastResend = none ∧ (sPair { upPair with nakFor := some 0, nakWait := 3 }).Inv ∧
    ((sPair { upPair with nakFor := some 0, nakWait := 3 }).pair 0 1).nakFor = some 0 ∧
    ((sPair { upPair with nakFor := some 0, nakWait := 3 }).pair 0 1).nakWait ≠ 0 ∧ (sPair resentPair).Inv ∧
    ((sPair resentPair).pair 0 1).lastResend = some ⟨true, 0, 1⟩ ∧ ((sPair resentPair).pair 0 1).toResend = 0 ∧
    [sent0].head?.map (·.seq) = some 0 ∧
    ((sPair holdPair).pair 0 1).state = .hold ∧ ((sPair { upPair with unacked := [sent0], txSeq := 1 }).pair 0 1).toResend = 0 ∧
    (sPair { upPair with unacked := [sent0], toResend := 1, resent := some 0 }).Inv ∧
    0 < ((sPair { upPair with unacked := [sent0], toResend := 1, resent := some 0 }).pair 0 1).toResend ∧
    ((sPair { upPair with unacked := [sent0], toResend := 1, resent := some 0 }).pair 0 1).resent = [sent0].head?.map (·.seq) ∧
    (sPair { upPair with unacked := [sent0], txSeq := 1 }).Inv ∧ ((sPair { upPair with unacked := [sent0], txSeq := 1 }).pair 0 1).state = .up ∧
    ((sPair { upPair with unacked := [sent0], txSeq := 1 }).pair 0 1).unacked ≠ [] ∧
    (0 : BitVec 16) = ((sPair upPair).pair 0 1).rxNext ∧ (5 : BitVec 16) ≠ ((sPair upPair).pair 0 1).rxNext ∧
    256 ≤ (((sPair upPair).pair 0 1).rxNext - 1 - 5).toNat ∧ ((sPair upPair).pair 0 1).nakFor ≠ some ((sPair upPair).pair 0 1).rxNext := by
  and_intros <;> first | decide +kernel | exact inv_of (by decide +kernel)

/-- Fingerprints of members 0 and 1 and of relay record 2. -/
def fprN (k : Nat) : List Byte := List.replicate 48 (BitVec.ofNat 8 (k + 1))
/-- A plan of two members and one relay, SEQ 5, JOINMS 100, one group of both members. -/
def plan0 : List Byte :=
  leBytes 0x31504246 4 ++ leBytes 5 4 ++ [2, 2, 0, 3, 1, 0, 0, 0] ++ leBytes 100 2 ++ List.replicate 46 0 ++
    ((List.range 3).map fun k => fprN k ++ List.replicate 16 0).flatten ++ List.replicate (64 * 29) 0 ++
    leBytes 3 8 ++ List.replicate 120 0 ++ List.replicate 32 0 ++ (leBytes 1 2 ++ [1, 1] ++ leBytes 0x102 4 ++ List.replicate 24 0) ++
    (leBytes 1 2 ++ [1, 1] ++ leBytes 0x102 4 ++ List.replicate 24 0) ++ List.replicate 32 0 ++ List.replicate 32 0 ++ leBytes 9 8
/-- Member 0 of the plan before J is formed, and after. -/
def join0 : Join := ⟨plan0, false, 0, 3, 4, [], [], none, false, [], []⟩
def join1 : Join := { join0 with j := some 3, joined := true }
/-- Plane 0's pair 1 leads to member 1, its pair 2 to relay 2; both are UP. -/
def withFabric (f : Fabric → Fabric) (x : Pair := upPair) : State :=
  let s := sPair x
  let s := s.setPair 0 2 upPair
  { s with fabric := f { s.fabric with
    peers := [fprN 1, fprN 2], map := [(1, ⟨true, false, true, 0, [], some [], []⟩), (2, ⟨true, false, true, 1, [], some [], []⟩)]
    mapReady := true } }
def sJoin (j : Join) : State := withFabric fun f => { f with job := some j }
def origin1 (tag : BitVec 16) (src dst : BitVec 8) : Origin := ⟨tag, src, dst, 0, none⟩
def joinMsg (seq : W32) : JoinMsg := ⟨fprN 1, seq, 9, 7, 3⟩
/-- Three members: member 2 has not sent yet. -/
def join3 : Join := { join0 with present := 7 }
theorem wit_JoinFormsFromItsMessages :
    s0.Inv ∧ s0.powered = true ∧ s0.fabric.job = none ∧ s0.job ≠ none ∧ (origin1 7 1 0).tag = job0.jobtag ∧
    (origin1 7 1 0).src.toNat < join1.members.length ∧ (origin1 7 1 0).dst.toNat = join1.ownRank ∧ (origin1 6 1 0).tag ≠ job0.jobtag ∧
    join1.members.length ≤ (origin1 7 2 0).src.toNat ∧ (origin1 7 1 1).dst.toNat ≠ join1.ownRank ∧ { s0 with job := none }.Inv ∧ (sJoin join0).Inv ∧ (sJoin join0).job = some job0 ∧ (sJoin join0).fabric.job = some join0 ∧
    (sJoin join0).launchActive = true ∧ join0.j = none ∧ (sJoin join0).launch.faultValid = false ∧
    ((joinMsg 6).seq.toNat == Plan.seq join0.plan && (joinMsg 6).check == Plan.check join0.plan && (joinMsg 6).jobtag == job0.jobtag) = false ∧
    ((joinMsg 5).seq.toNat == Plan.seq join0.plan && (joinMsg 5).check == Plan.check join0.plan && (joinMsg 5).jobtag == job0.jobtag) = true ∧
    State.recordOf join0.plan (Plan.nmemb join0.plan) (fprN 1) = some 1 ∧
    (∀ r ∈ (maskRanks join0.present).filter (· != join0.rank), ∃ x ∈ [((1 : Nat), (3 : W32))], x.1 = r) ∧
    (∃ r ∈ (maskRanks join3.present).filter (· != join3.rank), ∀ x ∈ [((1 : Nat), (3 : W32))], x.1 ≠ r) ∧ (sJoin join3).Inv ∧ join3.j = none ∧
    join3.joined = false ∧
    (∃ r ∈ (maskRanks join0.present).filter (· != join0.rank), ∀ x ∈ join0.joins, x.1 ≠ r) ∧ join0.joined = false ∧
    (sJoin join1).Inv ∧ (sJoin join1).fabric.job = some join1 ∧ join1.joined = true ∧ (1 : BitVec 8).toNat < join1.members.length := by
  and_intros <;> first | decide +kernel | exact inv_of (by decide +kernel)

def graft (dst : Nat) : Frame := ⟨7, 1, true, 0, 1, 0, 0, dstId (fprN dst), 0, 0, 0, 0, [], none⟩
/-- A launch that sent a frame to member 1 by a graft. -/
def sGraft : State := { sJoin join1 with fabric := { (sJoin join1).fabric with grafted := [graft 1] } }
def back0 : Frame := State.norouteOf (fprN 0) (graft 1)
/-- A discovery frame to pair 1 of plane 0 whose key is 97 zero bytes. -/
def disc0 : List Byte := leBytes 0x31435344 4 ++ [0, 31, 0, 0] ++ sha384 (List.replicate 97 0) ++ List.replicate 232 0
theorem conflict_of {s : State} {q : PlaneId} {c : PairId} {f : List Byte} (h : (s.rivals q c f).isEmpty = false) :
    s.mapConflictFor q c f = true := by simp [State.mapConflictFor, h]
/-- `mapConflictFor` = false asks that a fingerprint is not the module's own, which is the hash of an opaque key: no concrete witness. -/
theorem wit_DiscoveryAndRelays :
    (sPair upPair).Inv ∧ (1 : PairId) ≠ 0 ∧ ((sPair upPair).pair 0 1).canSend = true ∧ Discovery.names 0 1 (List.replicate 8 9) = false ∧
    Discovery.names 0 1 disc0 = true ∧
    ((sPair upPair).mapEntry 0 1).valid = false ∧ ((sPair upPair).mapEntry 0 1).cand = [] ∧
    (withFabric id).rivals 0 3 (fprN 1) = [1] ∧
    (∀ r k, k ≠ 0 → ((withFabric id).pair r k).state = .up → ((withFabric id).mapEntry r k).valid = true ∧ ((withFabric id).mapEntry r k).auth = true) ∧
    (withFabric id).Inv ∧ (sPair upPair).Inv ∧ ((sPair upPair).pair 0 1).state = .up ∧ ((sPair upPair).mapEntry 0 1).valid = false ∧
    (graft 1).via = true ∧ ((withFabric id).plane 0).run = true ∧ (withFabric id).relayPair 0 (graft 1).dstid = some (some (0, 1)) ∧
    (withFabric id).relayPair 0 (graft 7).dstid = none ∧ ((withFabric id).pair 0 1).canSend = true ∧ frame0.via = false ∧
    sGraft.Inv ∧ sGraft.job = some job0 ∧ sGraft.fabric.job = some join1 ∧ back0.tag = job0.jobtag ∧
    State.recordOf join1.plan (Plan.nmod join1.plan) (fprN 2) = some 2 ∧ back0.src.toNat < join1.members.length ∧
    back0.dst.toNat = join1.ownRank ∧ sGraft.returned back0 = some (graft 1) ∧ State.memberOf join1 (graft 1) = some 1 ∧
    (graft 1).kind ≠ 5 ∧ { back0 with tag := 6 }.tag ≠ job0.jobtag ∧ (withFabric id).fabric.relayWait = [] ∧
    (withFabric id { upPair with credits := 0 }).relayPair 0 (graft 1).dstid = some none ∧ (sPair upPair).powered = true ∧
    (1 : PairId) ≠ 0 ∧ ((sPair upPair).mapEntry 0 1).auth = false ∧ ((withFabric id).plane 1).run = false ∧
    (∀ m ∈ join1.members, m ≠ join1.rank → Plan.dweight join1.plan join1.rank m ≠ 0 ∧
      ∃ x ∈ sGraft.pairsOf (Plan.fpr join1.plan m), (Plan.dplanes join1.plan join1.rank m).testBit x.1.1 = true ∧ sGraft.isUp x = true) := by
  and_intros <;> first | decide +kernel | exact inv_of (by decide +kernel)
theorem wit_DiscoveryAndRelays_conflict : (withFabric id).mapConflictFor 0 3 (fprN 1) = true := conflict_of (by decide +kernel)

/-! ### Collectives -/

/-- Tile 0 with registers 1 to 4, in a joined launch of two members; the fabric is `f` of that. -/
def sColl (t : Tile) (mem : List Host.Cell) (f : Fabric → Fabric) : State :=
  let x := sJoin join1
  { x with tiles := [(0, t)], mem := mem, fabric := f x.fabric }
/-- A BARRIER record at 0x40000; at 0x50000 a record of an unassigned KIND; at 0x50040 a PUT of 64 bytes to rank 1. -/
def collMem : List Host.Cell := [(0x40000, 5), (0x50000, 9)] ++
  cells 0x50040 ([6, 0, 0, 0, 0, 1, 0, 0] ++ leBytes 0x60000 8 ++ leBytes 0 8 ++ leBytes 64 8)
def collTile : Tile := regTile 0x40000 0x50000 0 0x2_00000001
def coll0 (kind : Nat) (record : List Byte) : Coll :=
  { p := p0, te := some 7, issueNo := 1, pc := 0x100, word := 0, group := 0, number := 0, kind := kind, record := record, dests := [],
    members := [0, 1], own := 0, unacked := [], nextF := [], seen := [], ends := [], started := false, accounted := [], offered := [],
    grants := [], contrib := [], reduced := [], empties := [], handed := [], rowsLeft := [], rowsSent := [], endsSent := [],
    rowsIn := [], rowsGot := [], rowsDone := [], rowsOut := [], listed := false }
/-- A streamed reduce-scatter of 32 wire blocks of binary32: one unit, all of it the first member's. -/
def rscat0 : List Byte := [0, 0, 0x0E, 1, 0, 0, 0, 0] ++ leBytes 0 8 ++ leBytes 0x60000 8 ++ leBytes 32 8 ++ leBytes 0x70000 8 ++
  leBytes 0x10000 8 ++ List.replicate 16 0
/-- The same with 4 units, where the second member owns blocks 32 to 63. -/
def rscat4 : List Byte := [0, 0, 0x0E, 1, 0, 0, 0, 0] ++ leBytes 0 8 ++ leBytes 0x60000 8 ++ leBytes 64 8 ++ leBytes 0x70000 8 ++
  leBytes 0x10000 8 ++ List.replicate 16 0
def sStream (record : List Byte) (a : W64) : State :=
  sColl (regTile 0 0 0 a) [] fun f => { f with colls := [coll0 0 record] }

theorem wit_CollectivesStartByTheirRecord :
    (sColl collTile collMem fun f => { f with job := some join0 }).Inv ∧ (sColl collTile collMem id).Inv ∧ (sColl collTile collMem id).poisoned = [] ∧
    Instr.barrier p0 5 1 true 7 0 ∈ ([.rscat p0 5 1 true 7 0, .agather p0 5 1 true 7 0, .a2a p0 5 1 true 7 0, .bcast p0 5 1 true 7 0,
      .srow p0 5 1 true 7 0, .barrier p0 5 1 true 7 0, .put p0 5 1 true 7 0, .get p0 5 1 true 7 0] : List Instr) ∧
    (sColl collTile collMem id).issues (collOp (sColl collTile collMem id) (.barrier p0 5 1 true 7 0) p0 5 1 true 7 0) ∧ (sColl collTile collMem id).fabric.job = some join1 ∧
    join0.joined = false ∧ join1.joined = true ∧ (sColl collTile collMem id).fabric.waiting = [] ∧ (sColl collTile collMem id).fabric.early = [] ∧
    (sColl collTile collMem id).issues (collOp (sColl collTile collMem id) (.barrier p0 5 2 true 7 0) p0 5 2 true 7 0) ∧
    (sColl collTile collMem id).recordCause join1 ((sColl collTile collMem id).rdBytes 0x50000 64) = some 0x70 ∧
    (sColl collTile collMem id).recordCause join1 ((sColl collTile collMem id).rdBytes 0x40000 64) = none ∧
    Rec.kind ((sColl collTile collMem id).rdBytes 0x40000 64) < 6 ∧ Rec.group ((sColl collTile collMem id).rdBytes 0x40000 64) < 16 ∧
    (sColl collTile collMem fun f => { f with job := some join0 }).issues
      (collOp (sColl collTile collMem fun f => { f with job := some join0 }) (.barrier p0 5 1 true 7 0) p0 5 1 true 7 0) ∧
    (sColl collTile collMem id).recordCause join1 ((sColl collTile collMem id).rdBytes 0x50040 64) = none ∧
    Rec.kind ((sColl collTile collMem id).rdBytes 0x50040 64) = 6 ∧
    (sStream rscat0 0x2_00000001).Inv ∧ (sStream rscat0 0x2_00000001).issues (opFsendArm p0 3 0 4 0 (sStream rscat0 0x2_00000001)) ∧
    (sStream rscat4 0x2_00000001).Inv ∧ (sStream rscat4 0x2_00000020).issues (opFsendSkip p0 0 0 4 0 (sStream rscat4 0x2_00000020)) ∧
    (∀ b ∈ (coll0 0 rscat4).offered.map (·.1) ++ (List.range 2).map (0x20 + ·),
      (coll0 0 rscat4).members.getD (((sStream rscat4 0).collShards (coll0 0 rscat4)).owner b) 0 ≠ (coll0 0 rscat4).own) := by
  and_intros <;> first | decide +kernel | exact inv_of (by decide +kernel)

/-- An AGATHER of 100 bytes to 0x60000; an SROW of 8 table rows of 32 elements. -/
def agather0 : List Byte := [1, 0, 0, 0, 0, 0, 0, 0] ++ leBytes 0x50000 8 ++ leBytes 0x60000 8 ++ leBytes 100 8 ++ List.replicate 32 0
def srow0 : List Byte := [4, 0, 0, 0, 0, 0, 0, 0] ++ leBytes 0x50000 8 ++ leBytes 0x60000 8 ++ leBytes 0x8_00000020 8 ++ leBytes 0x70000 8 ++
  leBytes 0x10000 8 ++ leBytes 0x80000 8 ++ leBytes 0x90000 8
def sOpen (c : Coll) : State := sColl collTile [] fun f => { f with colls := [c] }
def data0 : Frame := ⟨7, 1, false, 1, 0, 0, 0, 0, 0, 0x80000000, 90, 0, List.replicate 10 0x5A, none⟩
/-- A message of member 1 without a body, for the collective 0 of group 0. -/
def orig0 : Origin := ⟨7, 1, 0, 0x80000000, none⟩
/-- The third member of a group that has not sent its END. -/
def srowOpen : Coll := { coll0 4 srow0 with members := [0, 1, 2], ends := [(0, 0)] }
theorem wit_CollectiveFramesReachTheirCollective :
    { s0 with job := none }.Inv ∧ s0.powered = true ∧ data0.kind = 1 ∧ data0.via = false ∧
    (Instr.grant orig0 0 0 5, grantOf orig0 0 0 5) ∈ ([(.transportData data0, data0), (.grant orig0 0 0 5, grantOf orig0 0 0 5),
      (.skipMessage orig0 0 0 5 3, skipOf orig0 0 0 5 3), (.end_ orig0 0 0, endOf orig0 0 0)] : List (Instr × Frame)) ∧ (sOpen (coll0 1 agather0)).Inv ∧
    (sOpen (coll0 1 agather0)).job = some job0 ∧ (sOpen (coll0 1 agather0)).fabric.job = some join1 ∧
    { data0 with dst := 1 }.dst.toNat ≠ join1.ownRank ∧ { data0 with tag := 6 }.tag ≠ job0.jobtag ∧
    join1.members.length ≤ { data0 with src := 2 }.src.toNat ∧ data0.tag = job0.jobtag ∧ data0.dst.toNat = join1.ownRank ∧
    data0.src.toNat < join1.members.length ∧ (sOpen (coll0 1 agather0)).collOf data0 = some (coll0 1 agather0) ∧
    (sOpen (coll0 1 agather0)).collOf { data0 with group := 1 } = none ∧
    (sOpen (coll0 1 agather0)).collIssued join1 { data0 with group := 1 } = false ∧
    (sColl collTile [] fun f => { f with groupCtr := f.groupCtr.set 0 1 }).collOf data0 = none ∧
    (sColl collTile [] fun f => { f with groupCtr := f.groupCtr.set 0 1 }).collIssued join1 data0 = true ∧
    data0.src.toNat ∈ (coll0 1 agather0).members ∧ (coll0 1 agather0).differs data0 = false ∧
    (coll0 1 agather0).differs { data0 with shape := some ⟨2, 0, 100⟩ } = true ∧ (1 : Nat) ∉ { coll0 1 agather0 with members := [0] }.members ∧
    (data0.src.toNat, data0.fidx.toNat) ∉ (coll0 1 agather0).seen ∧ (1, 0x80000000) ∈ { coll0 1 agather0 with seen := [(1, 0x80000000)] }.seen ∧
    data0.nblk = 0 ∧ data0.payload.length ≤ 2046 ∧ data0.arg.toNat + data0.payload.length = Rec.len agather0 ∧
    (sOpen (coll0 0 rscat0)).Inv ∧ (coll0 0 rscat0).offered = [] ∧
    (sOpen (coll0 0 rscat0)).collOf (grantOf orig0 0 0 5) = some (coll0 0 rscat0) ∧ (coll0 0 rscat0).differs (grantOf orig0 0 0 5) = false ∧
    (sOpen (coll0 0 rscat0)).collOf (skipOf orig0 0 0 5 3) = some (coll0 0 rscat0) ∧ leNat ((skipOf orig0 0 0 5 3).payload.take 8) = 3 ∧
    (∀ i, i < 3 → 5 + i ∈ (sOpen (coll0 0 rscat0)).ownBlocks (coll0 0 rscat0)) ∧
    (sOpen srowOpen).Inv ∧ (sOpen srowOpen).collOf (endOf orig0 0 0) = some srowOpen ∧ srowOpen.differs (endOf orig0 0 0) = false ∧
    (∃ m ∈ srowOpen.members, m ≠ (1 : BitVec 8).toNat ∧ m ≠ srowOpen.own ∧ ∀ y ∈ srowOpen.ends, y.1 ≠ m) := by
  and_intros <;> first | decide +kernel | exact inv_of (by decide +kernel)

/-- Block 3 given by both members, 1.0 everywhere in one and skipped by the other; row 2 of both members. -/
def rscatIn : Coll := { coll0 0 rscat0 with
  contrib := [⟨3, 0, 0, some ⟨0, List.replicate 32 0x3F800000, false⟩⟩, ⟨3, 1, 0, none⟩] }
def srowIn : Coll := { coll0 4 srow0 with
  rowsIn := [⟨2, 0, 0, List.replicate 32 0x3F800000⟩, ⟨2, 1, 1, List.replicate 32 0x40000000⟩],
  rowsGot := [(1, 0, 2)], seen := [(1, 0)], ends := [(0, 0)] }
theorem wit_ReductionsStoreTheWideSum :
    (sOpen rscatIn).Inv ∧ (sOpen rscatIn).poisoned = [] ∧
    (sOpen rscatIn).fabric.colls.find? (fun c => c.kind == 0 && c.group == (0 : BitVec 8).toNat && c.number == (0 : BitVec 32).toNat) = some rscatIn ∧
    3 ∈ (sOpen rscatIn).ownBlocks rscatIn ∧ 3 ∉ rscatIn.reduced ∧ (rscatIn.contrib.filter fun x => x.block == 3).length = rscatIn.n ∧
    Rec.upd rscatIn.record = false ∧ rscatIn.offered = [] ∧ (∃ x ∈ rscatIn.contrib.filter fun x => x.block == 3, x.given ≠ none) ∧
    (sOpen srowIn).Inv ∧
    (sOpen srowIn).fabric.colls.find? (fun c => c.kind == 4 && c.group == (0 : BitVec 8).toNat && c.number == (0 : BitVec 32).toNat) = some srowIn ∧
    (srowIn.rowsIn.filter fun x => x.row == 2) ≠ [] ∧ (∀ x ∈ srowIn.rowsIn, 2 ≤ x.row) ∧ srowIn.rowsLeft = [] ∧
    (∀ m ∈ srowIn.members, CollRun.passed srowIn 2 m = true) ∧ (∃ m ∈ srowIn.members, m ≠ srowIn.own ∧ ∀ y ∈ srowIn.ends, y.1 ≠ m) := by
  and_intros <;> first | decide +kernel | exact inv_of (by decide +kernel)

/-! ### Steps, amber sets, health, launches -/

/-- A step configuration: ARRIVE_N `n`, amber sets on with an area of 256 MiB at 0x10000000. -/
def step0 (n : Nat) : List Byte := leBytes 0x31505453 4 ++ [4, 0, 0, 0] ++ leBytes 1 4 ++ [1, 2, 3, 0, 4, 5, 6, 0] ++ leBytes n 4 ++ leBytes 0 4 ++
  leBytes 100 2 ++ leBytes 0 2 ++ leBytes 0x80000 8 ++ leBytes 0x10000000 8 ++ leBytes 0x10000000 8 ++ List.replicate 304 0
/-- A joined launch of two members with steps; this is member 0. -/
def sStep (n : Nat) (f : Steps → Steps) : State :=
  let s := sJoin join1
  { s with job := some { job0 with step := some (step0 n) }, steps := f { Steps.reset with t := 1, phase := .stepping } }
def commit0 (src : BitVec 8) (t : W32) : CommitMsg := ⟨src, t, 0, 0, false, false, false, 0, []⟩
theorem wit_StepsCommitThroughTheirGate :
    (sStep 0 id).Inv ∧ (sStep 0 id).powered = true ∧ (sStep 0 id).poisoned = [] ∧ (sStep 0 id).steps.units = [] ∧
    (sStep 0 fun x => { x with units := [{ unit0 with attempt := x.a }] }).Inv ∧
    (∃ u ∈ (sStep 0 fun x => { x with units := [{ unit0 with attempt := x.a }] }).steps.units, u.attempt = 0 ∧ u.checked = false) ∧ (sStep 0 id).stepCfg = some (step0 0) ∧ (sStep 0 id).launchActive = true ∧
    (sStep 0 id).stepping = true ∧ (sStep 0 id).steps.phase = .stepping ∧ (sStep 0 id).joinedUp = true ∧
    reached ((sStep 0 id).hostTally (StepCfg.arriveT (step0 0))) (StepCfg.arriveN (step0 0) * ((sStep 0 id).steps.k + 1)) = true ∧
    (∃ r ∈ (sStep 0 id).otherRanks, ∀ y ∈ (sStep 0 id).steps.msgs, y.src.toNat = r → y.k ≠ (sStep 0 id).steps.k) ∧
    (sStep 5 id).Inv ∧ reached ((sStep 5 id).hostTally (StepCfg.arriveT (step0 5))) (StepCfg.arriveN (step0 5) * ((sStep 5 id).steps.k + 1)) = false ∧
    (commit0 1 1).src.toNat ∈ (sStep 0 id).otherRanks ∧ (commit0 1 1).t = (sStep 0 id).steps.t ∧ (commit0 1 2).t ≠ (sStep 0 id).steps.t ∧
    { sStep 0 id with steps := { (sStep 0 id).steps with msgs := [commit0 1 1] } }.commitMsgs.length < (sStep 0 id).jobSize ∧
    (sStep 0 fun x => { x with phase := .arrived, msgs := [commit0 0 1] }).Inv ∧
    (sStep 0 fun x => { x with phase := .arrived, msgs := [commit0 0 1] }).jobSize ≤
      (sStep 0 fun x => { x with phase := .arrived, msgs := [commit0 0 1, commit0 1 1] }).commitMsgs.length ∧
    (sStep 0 fun x => { x with phase := .gateClear }).Inv ∧ (sStep 0 fun x => { x with phase := .gateClear }).steps.phase = .gateClear ∧
    reached ((sStep 0 id).hostTally (StepCfg.releaseT (step0 0))) (StepCfg.releaseN (step0 0) * ((sStep 0 id).steps.k + 1)) = true := by
  and_intros <;> first | decide +kernel | exact inv_of (by decide +kernel)

def slot0 : Slot := { Slot.empty with seq := 4, state := 1, image := [1] }
def sAmber (refused : List (BitVec 8 × Nat)) : State :=
  sStep 0 fun x => { x with slots := x.slots.set 0 { slot0 with refused := refused } }
def stripe0 (crc : W64) : StripeMsg := ⟨1, 4, 0, crc, [1, 2, 3]⟩
/-- SEQ 4; an image without regions, and one that claims a region. -/
def heldSlot : State := sStep 0 fun x => { x with held := [⟨1, 4, 0, [1], false⟩] }
def lostSlot : State := sStep 0 fun x => { x with held := [⟨1, 4, 1, [1], false⟩] }
def image0 (ndir : Byte) : List Byte := List.replicate 22 0 ++ [ndir, 0]
def sRestore : State := sStep 0 fun x => { x with phase := .restoring, chosen := some 0 }
/-- The same with one region of 64 bytes, and an image of it. -/
def step1 : List Byte := leBytes 0x31505453 4 ++ [4, 0, 1, 0] ++ ((step0 0).drop 8).take 88 ++ leBytes 0x20000000 8 ++ leBytes 64 8 ++
  List.replicate 248 0
def sRegion : State := { sRestore with job := some { job0 with step := some step1 } }
def image1 : List Byte := image0 1 ++ List.replicate 0xFF0 0 ++ leBytes 64 8 ++ List.replicate 0xFF0 0 ++ List.replicate 64 7
theorem regions1 : sRegion.amberRegions step1 = [(0x20000000, 64)] := by decide +kernel
theorem wit_AmberSetsSealAndRestore :
    heldSlot.Inv ∧ (∀ k ∈ heldSlot.assigned 1 1, ∃ h ∈ heldSlot.steps.held, h.rank = heldSlot.planRankOf 1 ∧ h.seq = 4 ∧ h.index = k) ∧
    lostSlot.Inv ∧ (∃ k ∈ lostSlot.assigned 1 1, ∀ h ∈ lostSlot.steps.held, h.index ≠ k) ∧ (1 : Nat) ∈ heldSlot.otherRanks ∧
    (sAmber []).poisoned = [] ∧ (sAmber []).power.shutdown = false ∧ (sAmber []).powered = true ∧ (sAmber []).Inv ∧ (sAmber []).stepCfg = some (step0 0) ∧ (sAmber []).launchActive = true ∧ StepCfg.amberOn (step0 0) = true ∧
    (stripe0 0).owner.toNat ∈ (sAmber []).otherRanks ∧ (sAmber []).ownRank ∈ holders (sAmber []).jobSize (stripe0 0).owner.toNat (stripe0 0).index ∧
    crc64 (stripe0 0).bytes ≠ (stripe0 0).crc ∧
    crc64 (stripe0 (crc64 [1, 2, 3])).bytes = (stripe0 (crc64 [1, 2, 3])).crc ∧
    ((sAmber []).steps.held.filter fun h => h.seq.toNat % 2 == 0).length < (StepCfg.amberLen (step0 0) - 2 ^ 20) / 2 / stripeBytes ∧
    ((sAmber []).slotAt 4).seq = 4 ∧ ((sAmber []).slotAt 4).state = 1 ∧ ((1 : BitVec 8), 0) ∈ ((sAmber []).slotAt 4).copies (sAmber []).jobSize (sAmber []).ownRank ∧
    ((1 : BitVec 8), 0) ∉ ((sAmber []).slotAt 4).refused ∧ (sAmber [(1, 0)]).Inv ∧ ((1 : BitVec 8), 0) ∈ ((sAmber [(1, 0)]).slotAt 4).refused ∧
    sRestore.Inv ∧ sRestore.stepping = true ∧ sRestore.steps.phase = .restoring ∧ (1 : BitVec 8).toNat ∈ sRestore.otherRanks ∧
    (∃ r < sRestore.jobSize, r ≠ (1 : BitVec 8).toNat ∧ ∀ y ∈ sRestore.steps.invs, y.src.toNat ≠ r) ∧ sRestore.joinedUp = true ∧
    StepCfg.store (step0 0) = false ∧ sRestore.steps.chosen = some (AmberImg.seq (image0 1)) ∧ sRestore.spareRanks (image0 1) = [] ∧
    AmberImg.ndir (image0 1) ≠ (sRestore.amberRegions (step0 0)).length ∧ sRestore.steps.chosen = some (AmberImg.seq (image0 0)) ∧
    sRestore.spareRanks (image0 0) = [] ∧ AmberImg.ndir (image0 0) = (sRestore.amberRegions (step0 0)).length ∧
    (∀ r, (sRestore.amberRegions (step0 0))[0]? ≠ some r) ∧
    ((sRestore.writeRegions (step0 0) (image0 0)).wrBytes (StepCfg.rspare (step0 0)) []).tablesOk = true := by
  and_intros <;> first | decide +kernel | exact inv_of (by decide +kernel) |
    simp [show sRestore.amberRegions (step0 0) = [] by decide +kernel]

theorem wit_AmberSetsSealAndRestore_region :
    sRegion.Inv ∧ sRegion.stepCfg = some step1 ∧ sRegion.launchActive = true ∧ sRegion.powered = true ∧ sRegion.poisoned = [] ∧
    sRegion.stepping = true ∧ sRegion.steps.phase = .restoring ∧ sRegion.joinedUp = true ∧ StepCfg.store step1 = false ∧
    sRegion.steps.chosen = some (AmberImg.seq image1) ∧ sRegion.spareRanks image1 = [] ∧ AmberImg.ndir image1 = 1 ∧
    AmberImg.regionLen image1 0 = 64 ∧ sRegion.steps.msgs = [] ∧ disjoint [(0x20000000, 64)] = true ∧
    ((sRegion.writeRegions step1 image1).wrBytes (StepCfg.rspare step1) []).tablesOk = true ∧ (AmberImg.region image1 0)[3]? = some 7 ∧
    0x80000 + 64 ≤ 0x20000003 ∧ Upd.ngrp sRegion.updImage = 0 := by
  and_intros <;> first | exact inv_of (by decide +kernel) | decide +kernel

def withHealth (run : Bool) (st : BitVec 3) : State := { s0 with health := { Health.reset with run := run, state := st } }
theorem wit_HealthStateFollowsTheRisk :
    s0.Inv ∧ s0.powered = true ∧ s0.health.run = false ∧ (withHealth true 0).Inv ∧ (withHealth true 0).health.run = true ∧ (withHealth true 1).Inv ∧
    (withHealth false 1).Inv ∧ (withHealth false 1).health.run = false ∧ (withHealth true 2).Inv ∧ (withHealth true 3).Inv ∧ (withHealth true 4).Inv ∧ (1 : W32).getLsbD 1 = false ∧ (1 : W32).getLsbD 0 = true ∧
    Health.reset.tableOk = false := by
  and_intros <;> first | decide +kernel | exact inv_of (by decide +kernel)

/-- A launch block at 0x10000 with a program of one word, its CHECKs computed by the spec's CRC-64. -/
def lpbBody : List Byte := leBytes 0x3142504C 4 ++ leBytes 7 2 ++ leBytes 0 2 ++ leBytes 0x20000 8 ++ List.replicate 104 0
def progBody : List Byte := leBytes 0x31475250 4 ++ leBytes 1 2 ++ leBytes 0 2 ++ leBytes 0x40 4 ++ leBytes 8 4 ++ List.replicate 40 0
def launchMem : List Host.Cell :=
  cells 0x10000 (lpbBody ++ leBytes (crc64 lpbBody).toNat 8) ++
  cells 0x20000 (progBody ++ leBytes (crc64 (progBody ++ List.replicate 8 0)).toNat 8)
/-- A module that checks a launch of tile 0 with DONE_COUNT `n`. -/
def sCheck (n : W32) : State :=
  { State.reset with
    l2p := [⟨0, by decide⟩, ⟨1, by decide⟩], meshOpen := true, mem := launchMem
    launch := { LaunchRegs.reset with run := true, st := 1, param := 0x10000, entry := 0x20040, count := 1, doneCount := n } }
def sEnd (st : SeqState) (l : LaunchRegs) : State := { stateOf { tile0 with state := st } with launch := { l with run := true } }
/-- A valid step configuration; a launch with it. -/
def stepBody : List Byte := leBytes 0x31505453 4 ++ [0, 0, 0, 0] ++ leBytes 5 4 ++ [1, 2, 3, 0, 4, 5, 6, 0] ++ leBytes 1 4 ++ leBytes 1 4 ++
  leBytes 100 2 ++ leBytes 0 2 ++ leBytes 0x80000 8 ++ List.replicate 312 0
def lpbStep : List Byte := leBytes 0x3142504C 4 ++ leBytes 7 2 ++ leBytes 0 2 ++ leBytes 0x20000 8 ++ List.replicate 80 0 ++ leBytes 0x40000 8 ++
  List.replicate 16 0
theorem stepBody_crc : crc64 stepBody = 0xB69528A8191368 := by
  have a : (stepBody.take 176).foldl crcByte 0xFFFFFFFFFFFFFFFF = 0x22F04B7733FB164F := by decide +kernel
  have b : (stepBody.drop 176).foldl crcByte 0x22F04B7733FB164F = 0xB69528A8191368 ^^^ 0xFFFFFFFFFFFFFFFF := by decide +kernel
  rw [crc64, ← List.take_append_drop 176 stepBody, List.foldl_append, a, b]
  decide
def stepMem : List Host.Cell :=
  cells 0x10000 (lpbStep ++ leBytes (crc64 lpbStep).toNat 8) ++
  cells 0x20000 (progBody ++ leBytes (crc64 (progBody ++ List.replicate 8 0)).toNat 8) ++
  cells 0x40000 (stepBody ++ leBytes 0xB69528A8191368 8)
def sCheckStep : State := { sCheck 1 with mem := stepMem }
theorem sCheckStep_cfg : sCheckStep.stepCfgValid (sCheckStep.rdBytes 0x40000 360) 0 = true := by
  have a : (sCheckStep.rdBytes 0x40000 360).take 0x160 = stepBody := by decide +kernel
  rw [State.stepCfgValid, a, stepBody_crc]
  decide +kernel
theorem wit_LaunchesStartAndEnd_step : sCheckStep.Inv ∧ sCheckStep.poisoned = [] ∧ sCheckStep.powered = true ∧ sCheckStep.launch.run = true ∧
    sCheckStep.launch.st = 1 ∧ (∀ c ∈ sCheckStep.launchChecks, c.ok = true) ∧ Lpb.plan sCheckStep.paramBlock = 0 ∧
    Lpb.step sCheckStep.paramBlock = 0x40000 ∧ StepCfg.restore (sCheckStep.rdBytes 0x40000 360) = false := by
  have step : Lpb.step sCheckStep.paramBlock = 0x40000 := by decide +kernel
  have tally : sCheckStep.launch.doneTally = 0 := rfl
  refine ⟨inv_of (by decide +kernel), rfl, rfl, rfl, rfl, ?_, by decide +kernel, step, by decide +kernel⟩
  have others : ∀ i, i < 14 → i ≠ 12 → ∀ c, sCheckStep.launchChecks[i]? = some c → c.ok = true := by
    intro i h k
    interval_cases i <;> first | exact absurd rfl k | skip
    all_goals
      intro c h
      simp only [State.launchChecks, List.getElem?_cons_succ, List.getElem?_cons_zero, Option.some.injEq] at h
      subst h
      decide +kernel
  intro c h
  obtain ⟨i, k⟩ := List.mem_iff_getElem?.1 h
  have bound : i < 14 := by
    by_contra n
    rw [List.getElem?_eq_none (by rw [show sCheckStep.launchChecks.length = 14 from rfl]; omega)] at k
    cases k
  by_cases e : i = 12
  · subst e
    simp only [State.launchChecks, List.getElem?_cons_succ, List.getElem?_cons_zero, Option.some.injEq] at k
    subst k
    simp only [State.stepCheck, step, tally, sCheckStep_cfg, Bool.and_true]
    decide +kernel
  · exact others i bound e c k

/-- A plan holds the fingerprint of an opaque key: no concrete witness of a launch with one. -/
theorem wit_LaunchesStartAndEnd :
    State.reset.Inv ∧ State.reset.powered = true ∧ State.reset.poisoned = [] ∧ State.reset.launch.run = false ∧ s0.Inv ∧ s0.launch.run = true ∧ s0.launch.st = 2 ∧
    (sCheck 0).Inv ∧ (sCheck 0).launch.st = 1 ∧ ((sCheck 0).launchChecks.find? (fun c => !c.ok)).map (·.code) = some 0x0E ∧
    (sCheck 1).Inv ∧ (∀ c ∈ (sCheck 1).launchChecks, c.ok = true) ∧ Lpb.plan (sCheck 1).paramBlock = 0 ∧ Lpb.step (sCheck 1).paramBlock = 0 ∧
    s0.launchActive = true ∧ (∃ p ∈ s0.jobTiles, s0.atRest p = false) ∧
    (sEnd .halted { LaunchRegs.reset with st := 2 }).Inv ∧
    (∀ p ∈ (sEnd .halted { LaunchRegs.reset with st := 2 }).jobTiles, (sEnd .halted { LaunchRegs.reset with st := 2 }).atRest p = true) ∧
    (sEnd .halted { LaunchRegs.reset with st := 2, completed := true }).Inv ∧
    (∀ p ∈ (sEnd .halted { LaunchRegs.reset with st := 2, completed := true }).jobTiles,
      (sEnd .halted { LaunchRegs.reset with st := 2, completed := true }).atRest p = true ∧
      ((sEnd .halted { LaunchRegs.reset with st := 2, completed := true }).tile p).state = .halted) ∧
    (sEnd .drained { LaunchRegs.reset with st := 3, pendingEnd := 2 }).Inv ∧
    (sEnd .drained { LaunchRegs.reset with st := 3, pendingEnd := 2 }).launchActive = true ∧
    (∀ p ∈ (sEnd .drained { LaunchRegs.reset with st := 3, pendingEnd := 2 }).jobTiles,
      (sEnd .drained { LaunchRegs.reset with st := 3, pendingEnd := 2 }).atRest p = true) := by
  and_intros <;> first | decide +kernel | exact inv_of (by decide +kernel)

/-- Source 2 is active in the machine domain, enabled and high; in the second state it rests and falls. -/
def domain2 (enabled : BitVec 64) (ip rectified : BitVec 64) : Aplic :=
  { Aplic.reset with ie := true, sourcecfg := Aplic.reset.sourcecfg.set 2 6, target := Aplic.reset.target.set 2 5, enabled := enabled, ip := ip
                     rectified := rectified }
def sIrq (x : Aplic) (high : Bool) : State :=
  { s0 with irq := { Irq.reset with machine := x }, launch := { s0.launch with endIrq := high } }
theorem wit_InterruptsFollowTheirSources :
    (sIrq (domain2 4 0 0) true).Inv ∧ 4 ≤ ((sIrq (domain2 4 0 0) true).irq.domain true).mode 2 ∧
    (sIrq (domain2 4 0 0) true).sourceLevel 2 = true ∧ ((sIrq (domain2 4 0 0) true).irq.domain true).rectified.getLsbD 2 = false ∧
    ((sIrq (domain2 4 0 0) true).irq.domain true).ie = true ∧ ((sIrq (domain2 4 0 0) true).irq.domain true).enabled.getLsbD 2 = true ∧
    (sIrq (domain2 0 0 0) true).Inv ∧ ((sIrq (domain2 0 0 0) true).irq.domain true).enabled.getLsbD 2 = false ∧
    (sIrq (domain2 0 4 4) false).Inv ∧ (sIrq (domain2 0 4 4) false).sourceLevel 2 = false ∧
    6 ≤ ((sIrq (domain2 0 4 4) false).irq.domain true).mode 2 := by
  and_intros <;> first | exact inv_of (by decide +kernel) | decide +kernel
/-- The identity of its MSI. -/
theorem test_msi : (5 : W32).toNat / 2 ^ 18 = 0 ∧ (5 : W32).toNat % 2048 = 5 := by decide

theorem wit_LaunchEventsFillTheirRegisters :
    s0.power.shutdown = false ∧ s0.Inv ∧ s0.powered = true ∧ s0.poisoned = [] ∧ s0.launchActive = true ∧ p0 ∈ s0.l2p ∧ s0.pruned p0 = false ∧
    { s0 with mesh := { s0.mesh with prune := 1 } }.Inv ∧ { s0 with mesh := { s0.mesh with prune := 1 } }.pruned p0 = true ∧
    s0.mesh.svcValid = false ∧ 0x80 ≤ (0x80 : Byte).toNat ∧ (0x85 : Byte).toNat ≤ 0x85 ∧
    0x87 ≤ (0x87 : Byte).toNat ∧ (0x8D : Byte).toNat ≤ 0x8D ∧ State.reset.launchActive = false ∧ State.reset.Inv ∧ s0.launch.faultValid = false ∧
    s0.inSet p0 = true ∧ { s0 with launch := .reset }.launchActive = false ∧ (0x80000000 : W32).getLsbD 31 = true ∧
    s0.listEntry ((0x80000000 : W32).setWidth 12) = some job0.lists[0] ∧ s0.launch.revokeBusy = false ∧ (job0.lists[0]).noRevoke = false := by
  and_intros <;> first | decide +kernel | exact inv_of (by decide +kernel)


/-! ### Power and PMBus -/

def withStandby (x : Standby) : State := { s0 with standby := x }
def off0 : Standby := { Standby.reset with pwrEn := false, pg := false, faultLatched := true, inReset := true }
def seq0 : Standby := { Standby.reset with pg := false, sequencing := true }
def held0 : Standby := { Standby.reset with inReset := true }
def sSeeds : State := { s0 with nv := { s0.nv with seeds := [(1, some ⟨5, 7⟩, some ⟨6, 7⟩)] } }
theorem wit_PowerStatesFollowTheSupply :
    sSeeds.Inv ∧ (∃ e ∈ sSeeds.nv.seeds, e.1 = pairKey 0 1) ∧ (∀ e ∈ sSeeds.nv.seeds, e.1 ≠ pairKey 0 2) ∧ (sSeeds.nv.seeds.map (·.1)).Nodup ∧
    (withStandby off0).Inv ∧ off0.pwrEn = false ∧ off0.supply = true ∧ off0.operation = 0x80 ∧ off0.pg = false ∧ 100 ≤ 100 ∧
    (withStandby { off0 with faultLatched := false }).Inv ∧ 4500 ≤ (4500 : BitVec 16).toNat ∧ (5500 : BitVec 16).toNat ≤ 5500 ∧
    (withStandby seq0).Inv ∧ seq0.sequencing = true ∧ seq0.inReset = false ∧ (withStandby { seq0 with inReset := true }).Inv ∧
    s0.Inv ∧ s0.standby.pg = true ∧ (withStandby held0).Inv ∧ held0.inReset = true ∧ held0.pg = true ∧ s0.standby.supply = true ∧
    (withStandby { off0 with supply := false }).Inv ∧ (4299 : BitVec 16).toNat < 4300 ∧ 5800 < (5801 : BitVec 16).toNat ∧
    3300 < (3301 : BitVec 16).toNat ∧ 4500 < (4501 : BitVec 16).toNat ∧ belowLimit 4499 100 s0.standby.uvLimit = true ∧
    belowLimit 4500 100 s0.standby.uvLimit = false ∧ aboveLimit 5501 100 s0.standby.ovLimit = true ∧ aboveLimit 3001 10 s0.standby.ocLimit = true ∧
    s0.powered = true := by
  and_intros <;> first | decide +kernel | exact inv_of (by decide +kernel)

/-- 50 V, 16,000 W, coolant at 20 °C with full flow; and 14,000 W. -/
def sample0 (pin : BitVec 16) : PowerSample := ⟨5000, 2000, pin, 160, 300, 160, 300, Vector.replicate 5 0⟩
def withPower (x : Power) : State := { s0 with power := x }
theorem wit_LimiterAndTemperatureRule :
    s0.Inv ∧ s0.powered = true ∧ s0.power.lMod.toNat = 16 ∧
    (powerCap s0.part 5000 s0.power.cap.toNat 160 300).1 < (sample0 16000).pin.toNat * (8 * minFlow s0.part) ∧
    (withPower { Power.reset with lMod := 5, below := 99 }).Inv ∧
    (sample0 1000).pin.toNat * (8 * minFlow s0.part) ≤ (powerCap s0.part 5000 s0.power.cap.toNat 160 300).1 ∧
    (stateOf { tile0 with therm := { Therm.reset with hot := 3 } }).Inv ∧ s0.inSet p0 = true ∧ (s0.tile p0).state = .issuing ∧
    3 ≤ ((stateOf { tile0 with therm := { Therm.reset with hot := 3 } }).tile p0).therm.hot ∧ (419 : BitVec 16).toInt < 420 ∧ 420 ≤ (420 : BitVec 16).toInt ∧
    (stateOf { tile0 with therm := { Therm.reset with hot := 2 } }).Inv ∧
    ((stateOf { tile0 with therm := { Therm.reset with hot := 2 } }).tile p0).therm.hot = 2 ∧ s0.launchActive = true ∧ p0 ∈ s0.l2p ∧
    30 ≤ 30 ∧ s0.launch.faultValid = false ∧ 7000 ≤ (7000 : W32).toNat % 2 ^ 14 ∧ (15000 : W32).toNat % 2 ^ 14 ≤ 15000 ∧
    (6999 : W32).toNat % 2 ^ 14 < 7000 ∧ 15000 < (15001 : W32).toNat % 2 ^ 14 := by
  and_intros <;> first | decide +kernel | exact inv_of (by decide +kernel)

theorem wit_PmbusCommandsAnswer : s0.Inv ∧ s0.standby.pg = true ∧ s0.powered = true ∧ off0.pg = false ∧ off0.supply = true ∧
    (withStandby off0).powered = false ∧ s0.standby.supply = true ∧ (withStandby { off0 with supply := false }).Inv ∧
    ({ off0 with supply := false } : Standby).supply = false ∧ limitInRange 0xE2D0 430 492 = true ∧ limitInRange 0xE370 430 492 = false ∧
    (0x79 : Byte) ∈ ([0x78, 0x79, 0x7C, 0x7D, 0x80] : List Byte) ∧ (0x7A : Byte) ∉ ([0x78, 0x79, 0x7C, 0x7D, 0x80] : List Byte) := by
  and_intros <;> first | decide +kernel | exact inv_of (by decide +kernel)

/-! ### The mesh, boot, the security block -/

def withMesh (m : Mesh) : State := { s0 with mesh := m }
def found0 : BringUp := ⟨0, [], [], [], [], []⟩
theorem wit_MeshClosesAndKeepsItsFieldMap :
    s0.Inv ∧ s0.powered = true ∧ (withMesh { Mesh.reset with starting := some found0 }).Inv ∧
    (withMesh { Mesh.reset with starting := some found0 }).mesh.starting ≠ none ∧ (5 : W32).toNat % 2048 < 1152 ∧ s0.mesh.write = none ∧
    TileMap.has s0.mesh.prune ⟨5, by decide⟩ = false ∧ TileMap.has s0.mesh.field ⟨5, by decide⟩ = false ∧
    (withMesh { Mesh.reset with prune := 32 }).Inv ∧ TileMap.has (32 : TileMap) ⟨5, by decide⟩ = true ∧ 1152 ≤ (1152 : W32).toNat % 2048 ∧
    (withMesh { Mesh.reset with write := some (.prune p1) }).Inv ∧ (withMesh { Mesh.reset with write := some (.prune p1) }).mesh.writeQueue = [] ∧
    (withMesh { Mesh.reset with write := some (.prune p1) }).mesh.write ≠ none ∧
    (withMesh { Mesh.reset with retry := [.prune p1, .suspect p1] }).Inv ∧
    (withMesh { Mesh.reset with retry := [.prune p1, .suspect p1] }).mesh.retry = .prune p1 :: [.suspect p1] := by
  and_intros <;> first | decide +kernel | exact inv_of (by decide +kernel)

def packet0 (dst : TileId) : Packet := ⟨p1, .unicast dst, 2, 7, false, false⟩
def t40 : TileId := ⟨40, by decide⟩
theorem wit_PacketsFollowTheirRoute :
    s0.Inv ∧ s0.powered = true ∧ routerOff s0.mesh.prune p1 = false ∧ (packet0 t40).dest = .unicast t40 ∧ TileMap.has s0.mesh.prune t40 = false ∧
    (s0.router p1).queue = [] ∧ route s0.mesh.prune p1 (packet0 t40) = some (.east, packet0 t40) ∧ neighbour p1 .east = some ⟨2, by decide⟩ ∧
    route s0.mesh.prune p1 (packet0 p1) = some (.localPort, packet0 p1) ∧ neighbour p1 .localPort = none ∧
    (withMesh { Mesh.reset with prune := 2 ^ 40 }).Inv ∧ TileMap.has (2 ^ 40 : TileMap) t40 = true ∧ routerOff (2 ^ 40 : TileMap) t40 = true ∧
    (0x80000000 : W32).getLsbD 31 = true ∧ s0.meshOpen = true ∧ sramBase 0 ≤ (BitVec.ofNat 48 (sramBase 7)).toNat ∧
    (BitVec.ofNat 48 (sramBase 7)).toNat < sramBase 1152 ∧
    (withMesh { Mesh.reset with prune := 2 ^ 7 }).Inv ∧ (withMesh { Mesh.reset with prune := 2 ^ 7 }).pruned
      (Fin.ofNat 1152 (((BitVec.ofNat 48 (sramBase 7)).toNat - sramBase 0) / 0x400_0000)) = true ∧
    s0.pruned (Fin.ofNat 1152 (((BitVec.ofNat 48 (sramBase 0 + 0x280_0000)).toNat - sramBase 0) / 0x400_0000)) = false ∧
    0x280_0000 ≤ (BitVec.ofNat 48 (sramBase 0 + 0x280_0000)).toNat % 0x400_0000 ∧
    (BitVec.ofNat 48 (sramBase 0 + 0x27F_FFFC)).toNat % 0x400_0000 < 0x280_0000 := by
  and_intros <;> first | decide +kernel | exact inv_of (by decide +kernel)

/-- Erased flash holds no firmware. -/
theorem chooseImage_reset : s0.chooseImage true = none := by
  have h (b : Bool) : FlashImg.valid s0.nv true (s0.slotImage true b) = false := by
    have r (a n : Nat) (h : a + n ≤ 0x820_0000) : s0.flashBytes a n = List.replicate n 0xFF := by
      rw [State.flashBytes, List.eq_replicate_iff]
      refine ⟨by simp, fun x hx => ?_⟩
      obtain ⟨i, hi, rfl⟩ := List.mem_map.1 hx
      rw [List.mem_range] at hi
      rw [State.flashByte, factoryByte, if_neg (by omega), if_neg (by omega)]
      rfl
    have e : (s0.slotImage true b).take 4 = List.replicate (min 4 (s0.slotImage true b).length) 0xFF := by
      obtain ⟨a, n, q, h⟩ : ∃ a n, s0.slotImage true b = s0.flashBytes a n ∧ a + n ≤ 0x820_0000 :=
        ⟨_, _, rfl, (Nat.add_le_add_left (Nat.min_le_left ..) _).trans (by cases b <;> decide)⟩
      rw [q, r a n h, List.take_replicate, List.length_replicate]
    have k : Image.field (s0.slotImage true b) 0 4 ≠ 0x3157464F := by
      unfold Image.field
      rw [List.drop_zero, e]
      have : min 4 (s0.slotImage true b).length ≤ 4 := Nat.min_le_left ..
      revert this
      generalize min 4 (s0.slotImage true b).length = n
      intro hn
      have : n = 0 ∨ n = 1 ∨ n = 2 ∨ n = 3 ∨ n = 4 := by omega
      rcases this with rfl | rfl | rfl | rfl | rfl <;> decide +kernel
    have k' : (Image.field (s0.slotImage true b) 0 4 == 0x3157464F) = false := by simpa using k
    simp only [FlashImg.valid, if_true, k', Bool.false_and]
  simp only [State.chooseImage, h, Bool.false_eq_true, false_and, if_false]

def withBoot (x : Boot) : State := { s0 with boot := x }
def flash0 : Boot := { Boot.reset with running := true, flashOff := 0x4000000, flashLen := 0x10000, flashSrc := 0x100000 }
/-- A valid image needs a signature by an opaque vendor key: no concrete witness of it. -/
theorem wit_BootAndFlashKeepTheirSlots :
    s0.chooseImage true = none ∧ s0.Inv ∧ (withBoot flash0).power.shutdown = false ∧ (withBoot { flash0 with flashOff := 0 }).slotInUse (true, false) = true ∧
    (flashSlot true false).1 + 0x10000 ≤ (flashSlot true false).2 ∧
    (∀ b : Bool × Bool, 0x8200000 < (flashSlot b.1 b.2).1 ∨ (flashSlot b.1 b.2).1 + (flashSlot b.1 b.2).2 < 0x8200000 + 0x10000) ∧ s0.poisoned = [] ∧ s0.powered = true ∧ s0.boot.running = false ∧ s0.boot.bootFail = false ∧
    (withBoot { Boot.reset with bootFail := true }).Inv ∧ FlashImg.valid s0.nv true [] = false ∧
    (withBoot flash0).Inv ∧ (withBoot flash0).flashRefused true = false ∧ (withBoot flash0).flashRefused false = false ∧
    (withBoot { flash0 with flashOff := 0 }).Inv ∧ (withBoot { flash0 with flashOff := 0 }).flashRefused true = true ∧
    (withBoot { flash0 with flashOff := 0 }).flashRefused false = true ∧
    0x4000000 + 0x10000 ≤ 0x820_0000 ∧ (withBoot { flash0 with flashBusy := true, flashOp := some (0x4000000, 0x10000, none) }).Inv ∧
    (withBoot { flash0 with flashBusy := true, flashOp := some (0x4000000, 0x10000, none) }).boot.flashBusy = true ∧
    (withBoot { flash0 with flashBusy := true, flashOp := some (0x4000000, 2, some [1, 2]) }).Inv := by
  refine ⟨chooseImage_reset, ?_⟩
  and_intros <;> first | decide +kernel | exact inv_of (by decide +kernel)

/-- An accepted maintenance command needs a signature over the free nonce: no concrete witness of it. -/
theorem wit_SecurityCommandsKeepTheFuses :
    s0.Inv ∧ s0.powered = true ∧ s0.poisoned = [] ∧ s0.power.shutdown = false ∧ (1 : W32).toNat % 16 = 1 ∧ s0.sec.addr.toNat % 64 = 0 ∧ s0.sec.addr.toNat + 288 ≤ s0.part.ddrEnd ∧
    s0.cmdReason (s0.rdBytes s0.sec.addr.toNat 288) = some 1 ∧ (2 : W32).toNat % 16 = 2 ∧ s0.nv.owner = none ∧
    { s0 with nv := { s0.nv with owner := some [] } }.Inv ∧ (4 : W32).toNat % 16 = 4 ∧ (8 : W32).toNat % 16 = 8 ∧
    (3 : W32).toNat % 16 ∉ [0, 1, 2, 4, 8] := by
  and_intros <;> first | decide +kernel | exact inv_of (by decide +kernel)

theorem wit_SpdmRequestsAreAnswered : { s0 with spdm := ⟨true, none⟩ }.Inv ∧ { s0 with spdm := ⟨true, none⟩ }.spdm.isOpen = true ∧
    { s0 with spdm := ⟨true, none⟩ }.pending.any isSpdmRequest = false ∧
    { s0 with spdm := ⟨true, none⟩, pending := [.getDigests] }.Inv ∧
    { s0 with spdm := ⟨true, none⟩, pending := [.getDigests] }.pending.any isSpdmRequest = true ∧ s0.powered = true ∧
    s0.Inv ∧ s0.spdm.isOpen = false ∧ (1 : BitVec 8) ≠ 0 ∧ 1 ≤ (10 : BitVec 8).toNat ∧ (10 : BitVec 8).toNat ≤ 10 := by
  and_intros <;> first | decide +kernel | exact inv_of (by decide +kernel)

/-! ### Ethernet and the registers -/

/-- Ring 0 with descriptors at 0x40000, the transmit ring at 0x50000, one descriptor posted in each. -/
def ring0 (base : BitVec 48) : Ring := { Ring.reset with base := base, size := 6, tail := 1 }
def port0 : EthPort := { EthPort.reset with run := true, rings := EthPort.reset.rings |>.set 0 (ring0 0x40000) |>.set 8 (ring0 0x50000) }
def withEth (x : EthPort) : State := { s0 with eth := s0.eth.set 0 x
                                               mem := cells 0x40000 (leBytes 0x60000 8 ++ leBytes 9216 4) ++ cells 0x50000 (leBytes 0x70000 8 ++ leBytes 64 4) }
def bcast0 : List Byte := List.replicate 60 0xFF
/-- A PFC frame that pauses priority 0 and resumes priority 1. -/
def pfc0 : List Byte := [0x01, 0x80, 0xC2, 0, 0, 0x01, 2, 0, 0, 0, 0, 0, 0x88, 0x08, 0x01, 0x01, 0, 3, 0xFF, 0xFF] ++ List.replicate 40 0
theorem wit_EthernetRingsMoveFrames :
    (withEth port0).Inv ∧ (withEth port0).power.shutdown = false ∧ (withEth port0).powered = true ∧ (withEth port0).poisoned = [] ∧ ((withEth port0).ethPort 0).run = true ∧ 60 ≤ bcast0.length ∧ bcast0.length ≤ 9212 ∧
    frameRing 0 bcast0 = 0 ∧ 0 < ((withEth port0).ring 0 0).posted ∧ (withEth port0).hostDesc 0 0 = (0x60000, 9216, 0) ∧ 9216 % 64 = 0 ∧
    ((withEth port0).ring 0 0).every = 0 ∧ ((withEth port0).ring 0 0).desc + 0x20 ≤ 0x60000 ∧
    (withEth { EthPort.reset with run := true }).Inv ∧ ((withEth { EthPort.reset with run := true }).ring 0 0).posted = 0 ∧
    0 < ((withEth port0).ring 0 txRing).posted ∧ (withEth port0).hostDesc 0 txRing = (0x70000, 64, 0) ∧ 0x70000 + 64 ≤ s0.part.ddrEnd ∧
    s0.Inv ∧ (s0.ethPort 0).run = false ∧ hasRing 0 7 = true ∧ hasRing 4 7 = false ∧ (1 : W32).getLsbD 0 = true ∧
    (∀ y ∈ (s0.ethPort 0).rings.toList, y.outside s0.part.ddrEnd = false) ∧
    (withEth { port0 with run := false, rings := port0.rings.set 0 (ring0 0xFFFFFFFFFFFF) }).Inv ∧
    (∃ y ∈ ((withEth { port0 with run := false, rings := port0.rings.set 0 (ring0 0xFFFFFFFFFFFF) }).ethPort 0).rings.toList,
      y.outside s0.part.ddrEnd = true) ∧ (3 : EthId) ≠ 4 ∧
    (withEth { port0 with present := true, held := false, lowPower := false }).Inv ∧
    ((withEth { port0 with present := true, held := false, lowPower := false }).ethPort 0).link ≠ true ∧
    (withEth { port0 with link := true, held := true }).Inv ∧ ((withEth { port0 with link := true, held := true }).ethPort 0).link = true ∧ (s0.ethPort 0).link = false := by
  and_intros <;> first | decide +kernel | exact inv_of (by decide +kernel)
theorem test_broadcast : forPort 0 bcast0 = true ∧ forPort 0 pfc0 = true ∧ isPfc pfc0 = true ∧ isPfc bcast0 = false ∧
    60 ≤ pfc0.length ∧ pausedBy 2 pfc0 = 1 := by
  have h {f : List Byte} (k : (f.headD 0).getLsbD 0 = true) : forPort 0 f = true := by rw [forPort, k, Bool.or_true]
  exact ⟨h (by decide), h (by decide), by decide, by decide, by decide, by decide⟩

theorem wit_CounterReadsDeliverAndClear : s0.Inv ∧ s0.pruned p0 = false := by
  and_intros <;> first | decide +kernel | exact inv_of (by decide +kernel)
theorem wit_RegistersReadBackTheirWrites : s0.Inv ∧ s0.powered = true ∧ 11 < 12 ∧ 191 < 192 ∧ s0.launch.run = true ∧ s0.health.run = false ∧ State.reset.Inv ∧
    State.reset.launch.run = false ∧ (withHealth true 0).Inv ∧ (withHealth true 0).health.run = true ∧
    placeOf s0.part (0x7FFF_FFFF_FFFC : BitVec 48).toNat = .hole ∧ placeOf s0.part (0x7F00_0600_5000 : BitVec 48).toNat = .nowhere ∧
    s0.hartRuns 0 = true := by
  and_intros <;> first | decide +kernel | exact inv_of (by decide +kernel)


end Sys2Proof.Tests
end

section
/-!
PROOFS. ALU and ALUI (R155): an instruction that only writes s[sd], the table of the functions, and the causes.
-/
namespace Sys2Proof.Machine

@[simp] theorem Tile.setReg_fault (t : Tile) (r : BitVec 5) (v : W64) : (t.setReg r v).fault = t.fault := by
  unfold Tile.setReg
  split <;> rfl

@[simp] theorem Tile.advance_fault (t : Tile) (n : Nat) (wc : Bool) : (t.advance n wc).fault = t.fault := rfl

/-- An instruction that neither waits nor is held, whose effect is an update of its tile that keeps the fault record. -/
theorem State.run_thenTile {s : State} (w : Sparse.wf Tile.reset s.tiles = true) {p : TileId} {word : W64} {n : Nat}
    {reads : List (BitVec 5)} {checks : List Check} {held wc : Bool} {f : Tile → Tile} (r : s.ready p reads)
    (hc : ∀ c ∈ checks, c.bad = false) (hh : held = false) (hf : ∀ t, (f t).fault = t.fault) :
    s.run (TileOp.mk p word n reads checks held wc fun s => s.thenTile p f) =
      .next (s.setTile p (f ((s.tile p).advance n wc))) := by
  have i : s.issues (TileOp.mk p word n reads checks held wc fun s => s.thenTile p f) := ⟨r, hc, hh, rfl, rfl⟩
  rw [i.run_same (by simp [thenTile_advance w, tile_setTile w, hf])]
  exact congrArg _ (thenTile_advance w p n wc f)

/-- The first failing check of an instruction that enters no queue, when its cause is none of the descriptor or routing causes. -/
theorem State.run_mk_fault {s : State} {p : TileId} {word : W64} {n : Nat} {reads : List (BitVec 5)} {checks : List Check}
    {held wc : Bool} {f : State → State} (r : s.ready p reads) {c : Check} (hc : checks.find? (·.bad) = some c)
    (hl : c.cause.toNat < 0x40) :
    s.run (TileOp.mk p word n reads checks held wc f) = .next (s.programFault p c.cause word) := by
  have a : s.looksAt (TileOp.mk p word n reads checks held wc f) := r
  rw [a.run_fault_now rfl hc, checkFault_of_lt _ _ _ hl]

theorem run_regOp {s : State} (w : Sparse.wf Tile.reset s.tiles = true) {p : TileId} {word : W64} {sd : BitVec 5}
    {reads : List (BitVec 5)} {checks : List Check} {v : Tile → W64} (r : s.ready p (sd :: reads))
    (hc : ∀ c ∈ checks, c.bad = false) :
    s.run (regOp s p word sd reads checks v) = .next (s.setTile p (((s.tile p).advance 8 false).setReg sd (v (s.tile p)))) :=
  State.run_thenTile w r hc rfl fun t => t.setReg_fault sd _

/-! ### The table of R155 -/

theorem toNat_ite_ult_min (a b : W64) : (if a.ult b then a else b).toNat = min a.toNat b.toNat := by
  simp only [BitVec.ult_eq_decide, decide_eq_true_eq, apply_ite BitVec.toNat, min_def_lt]

theorem toNat_ite_ult_max (a b : W64) : (if a.ult b then b else a).toNat = max a.toNat b.toNat := by
  simp only [BitVec.ult_eq_decide, decide_eq_true_eq, apply_ite BitVec.toNat, max_def_lt]

theorem toInt_ite_slt_min (a b : W64) : (if a.slt b then a else b).toInt = min a.toInt b.toInt := by
  simp only [BitVec.slt_eq_decide, decide_eq_true_eq, apply_ite BitVec.toInt, min_def_lt]

theorem toInt_ite_slt_max (a b : W64) : (if a.slt b then b else a).toInt = max a.toInt b.toInt := by
  simp only [BitVec.slt_eq_decide, decide_eq_true_eq, apply_ite BitVec.toInt, max_def_lt]

/-- Each assigned function code has a result, the one that the table of R155 gives. -/
theorem aluFn_meets_rule (fn : BitVec 5) (a b : W64) (h : fn.toNat < 16) :
    ∃ v, aluFn fn a b = some v ∧ AluRule fn.toNat a b v := by
  unfold aluFn
  generalize fn.toNat = n at h
  match n, h with
  | 0, _ => exact ⟨_, rfl, BitVec.toNat_add a b⟩
  | 1, _ => exact ⟨_, rfl, by simp only [AluRule]; bv_omega⟩
  | 2, _ => exact ⟨_, rfl, fun i _ => BitVec.getLsbD_and⟩
  | 3, _ => exact ⟨_, rfl, fun i _ => BitVec.getLsbD_or⟩
  | 4, _ => exact ⟨_, rfl, fun i _ => BitVec.getLsbD_xor⟩
  | 5, _ => exact ⟨_, rfl, by simp [AluRule, Nat.shiftLeft_eq]⟩
  | 6, _ => exact ⟨_, rfl, by simp [AluRule, Nat.shiftRight_eq_div_pow]⟩
  | 7, _ => exact ⟨_, rfl, by simp [AluRule, BitVec.toInt_sshiftRight, Int.shiftRight_eq_div_pow]⟩
  | 8, _ => exact ⟨_, rfl, BitVec.toNat_mul a b⟩
  | 9, _ =>
    have : a.toNat * b.toNat / 2 ^ 64 < 2 ^ 64 :=
      Nat.div_lt_of_lt_mul (Nat.mul_lt_mul'' a.isLt b.isLt)
    exact ⟨_, rfl, by simp only [AluRule, BitVec.toNat_ofNat]; exact Nat.mod_eq_of_lt this⟩
  | 10, _ => exact ⟨_, rfl, toInt_ite_slt_min a b⟩
  | 11, _ => exact ⟨_, rfl, toInt_ite_slt_max a b⟩
  | 12, _ => exact ⟨_, rfl, toNat_ite_ult_min a b⟩
  | 13, _ => exact ⟨_, rfl, toNat_ite_ult_max a b⟩
  | 14, _ => exact ⟨_, rfl, by simp only [AluRule, BitVec.slt_eq_decide, decide_eq_true_eq]; split <;> rfl⟩
  | 15, _ => exact ⟨_, rfl, by simp only [AluRule, BitVec.ult_eq_decide, decide_eq_true_eq]; split <;> rfl⟩
  | _ + 16, h => exact absurd h (by omega)

theorem aluIsShift_iff (fn : BitVec 5) : aluIsShift fn = true ↔ fn.toNat = 5 ∨ fn.toNat = 6 ∨ fn.toNat = 7 := by
  simp [aluIsShift, ← BitVec.toNat_inj, or_assoc]

/-! ### The two instructions -/

section
variable {s : State} {p : TileId} {sd sa sb fn : BitVec 5} {rsv : BitVec 38} {rsv' : BitVec 11} {imm : BitVec 32}

theorem execAlu_writes (w : Sparse.wf Tile.reset s.tiles = true) (r : s.ready p [sd, sa, sb]) (h : fn.toNat < 16) :
    ∃ v, AluRule fn.toNat ((s.tile p).reg sa) ((s.tile p).reg sb) v ∧
      exec (.alu p sd sa sb fn 0) s = .next (s.setTile p (((s.tile p).advance 8 false).setReg sd v)) := by
  obtain ⟨v, hv, rule⟩ := aluFn_meets_rule fn ((s.tile p).reg sa) ((s.tile p).reg sb) h
  have e : exec (.alu p sd sa sb fn 0) s = s.run (opAlu p sd sa sb fn 0 s) := rfl
  refine ⟨v, rule, ?_⟩
  rw [e, opAlu, run_regOp w r (by simp [chkSel, chkRsv]; omega), hv, Option.getD_some]

theorem execAlui_writes (w : Sparse.wf Tile.reset s.tiles = true) (r : s.ready p [sd, sa]) (h : fn.toNat < 16)
    (hs : fn.toNat = 5 ∨ fn.toNat = 6 ∨ fn.toNat = 7 → imm.toNat < 64) :
    ∃ v, AluRule fn.toNat ((s.tile p).reg sa) (imm.signExtend 64) v ∧
      exec (.alui p sd sa fn 0 imm) s = .next (s.setTile p (((s.tile p).advance 8 false).setReg sd v)) := by
  obtain ⟨v, hv, rule⟩ := aluFn_meets_rule fn ((s.tile p).reg sa) (imm.signExtend 64) h
  have e : exec (.alui p sd sa fn 0 imm) s = s.run (opAlui p sd sa fn 0 imm s) := rfl
  have hc : (aluIsShift fn && decide (64 ≤ imm.toNat)) = false := by
    rw [Bool.and_eq_false_imp, aluIsShift_iff, decide_eq_false_iff_not, Nat.not_le]
    exact hs
  refine ⟨v, rule, ?_⟩
  rw [e, opAlui, run_regOp w r (by simp [chkSel, chkRsv, hc]; omega), sext, hv, Option.getD_some]

theorem execAlu_fault (r : s.ready p [sd, sa, sb]) {c : Check} (hl : c.cause.toNat < 0x40)
    (hc : [chkSel (decide (16 ≤ fn.toNat)), chkRsv (rsv != 0)].find? (·.bad) = some c) :
    exec (.alu p sd sa sb fn rsv) s = .next (s.programFault p c.cause (Layout.alu sd sa sb fn rsv)) :=
  State.run_mk_fault r hc hl

theorem execAlui_fault (r : s.ready p [sd, sa]) {c : Check} (hl : c.cause.toNat < 0x40)
    (hc : [chkSel (decide (16 ≤ fn.toNat)), chkRsv (rsv' != 0),
      { bad := aluIsShift fn && decide (64 ≤ imm.toNat), cause := 0x0B }].find? (·.bad) = some c) :
    exec (.alui p sd sa fn rsv' imm) s = .next (s.programFault p c.cause (Layout.alui sd sa fn rsv' imm)) :=
  State.run_mk_fault r hc hl

end

/-- Settles O7: the effect of an instruction that only writes s[sd] with the table of R155, and its first failing check. -/
theorem aluWritesTheTablesResult : Obligations.AluWritesTheTablesResult := by
  refine ⟨fun s p sd sa sb fn imm i h => ⟨fun r => execAlu_writes i.tiles r h, fun r hs => execAlui_writes i.tiles r h hs⟩,
    fun s p sd sa sb fn rsv rsv' imm => ⟨fun r => ⟨fun h => ?_, fun h h' => ?_⟩, fun r => ⟨fun h => ?_, fun h h' => ?_, fun h h' h'' hi => ?_⟩⟩⟩
  · exact execAlu_fault r (c := chkSel true) (by decide) (by simp [chkSel, h])
  · exact execAlu_fault r (c := chkRsv true) (by decide) (by simpa [chkSel, chkRsv, Nat.not_le.mpr h] using h')
  · exact execAlui_fault r (c := chkSel true) (by decide) (by simp [chkSel, h])
  · exact execAlui_fault r (c := chkRsv true) (by decide) (by simpa [chkSel, chkRsv, Nat.not_le.mpr h] using h')
  · have hf : aluIsShift fn = true := (aluIsShift_iff fn).mpr (by omega)
    exact execAlui_fault r (c := { bad := true, cause := 0x0B }) (by decide)
      (by simp [chkSel, chkRsv, h'', hf, hi, show ¬ 16 ≤ fn.toNat by omega])

end Sys2Proof.Machine
end

section
/-!
PROOFS. Memory that no poison meets (R258): what a read delivers, and what reading it leaves.
-/
namespace Sys2Proof.Machine.State

variable {s t : State} {l : List Nat} {a n : Nat}

theorem poisonedLines_eq_nil_iff : s.poisonedLines l = [] ↔ ∀ a ∈ l, s.isPoisoned a = false := by
  simp only [poisonedLines, List.filter_eq_nil_iff, isPoisoned, List.any_eq_true, beq_iff_eq, not_exists, not_and,
    List.contains_eq_mem, decide_eq_false_iff_not]
  exact ⟨fun h a ha m => h _ m a ha rfl, fun h x hx a ha e => h a ha (e ▸ hx)⟩

/-- A write never poisons: what was clean stays clean. -/
theorem WritesOnly.isPoisoned_eq_false {k : List Nat} (h : s.WritesOnly t k) (c : s.isPoisoned a = false) : t.isPoisoned a = false := by
  simp only [isPoisoned, List.contains_eq_mem, decide_eq_false_iff_not] at c ⊢
  exact fun m => c (h.poison _ m)

theorem rd_of_clean (c : s.isPoisoned a = false) : s.rd a = s.peek a := by simp [rd, c]

theorem rdBytes_of_clean (c : ∀ i, i < n → s.isPoisoned (a + i) = false) :
    s.rdBytes a n = (List.range n).map fun i => s.peek (a + i) :=
  List.map_congr_left fun i hi => rd_of_clean (c i (List.mem_range.mp hi))

/-- Reading bytes that no poison meets has no effect of its own. -/
theorem readByModule_of_clean (h : s.poisonedLines l = []) : s.readByModule l = s := by
  rw [readByModule, h, modulePoison]

theorem rdNat_congr (hm : t.mem = s.mem) (hp : t.poisoned = s.poisoned) (a n : Nat) : t.rdNat a n = s.rdNat a n := by
  unfold rdNat rdBytes rd isPoisoned peek
  rw [hm, hp]

/-- A number written where no poison is reads back. -/
theorem rdNat_wrNat_of_clean (w : s.memWf = true) (c : ∀ i, i < n → s.isPoisoned (a + i) = false) (v : Nat) :
    (s.wrNat a n v).rdNat a n = v % 256 ^ n := by
  have e : (s.wrNat a n v).rdBytes a n = leBytes v n := by
    rw [rdBytes_of_clean fun i hi => (wrNat_writesOnly w a n v).isPoisoned_eq_false (c i hi)]
    apply List.ext_getElem
    · simp [leBytes_length]
    · intro i h1 h2
      simp [wrNat, peek_wrBytes w, List.getElem?_eq_getElem h2]
  rw [rdNat, e, leNat_leBytes]

/-- A number that a write does not meet, and no poison does, reads as before. -/
theorem WritesOnly.rdNat_eq (h : s.WritesOnly t l) (c : ∀ i, i < n → s.isPoisoned (a + i) = false)
    (d : ∀ i, i < n → a + i ∉ l) : t.rdNat a n = s.rdNat a n := by
  rw [rdNat, rdNat, rdBytes_of_clean c, rdBytes_of_clean fun i hi => h.isPoisoned_eq_false (c i hi)]
  exact congrArg _ (List.map_congr_left fun i hi => h.bytes _ (d i (List.mem_range.mp hi)))

theorem touchAtomic_frame (s : State) (a : Nat) : s.touchAtomic a = { s with ports := (s.touchAtomic a).ports } := by
  unfold touchAtomic modPort
  split <;> rfl

@[simp] theorem touchAtomic_tiles (s : State) (a : Nat) : (s.touchAtomic a).tiles = s.tiles := by rw [touchAtomic_frame]
@[simp] theorem touchAtomic_mem (s : State) (a : Nat) : (s.touchAtomic a).mem = s.mem := by rw [touchAtomic_frame]
@[simp] theorem touchAtomic_poisoned (s : State) (a : Nat) : (s.touchAtomic a).poisoned = s.poisoned := by rw [touchAtomic_frame]

theorem tile_modTile (w : Sparse.wf Tile.reset s.tiles = true) (p q : TileId) (f : Tile → Tile) :
    (s.modTile p f).tile q = if q = p then f (s.tile p) else s.tile q := tile_setTile w p q _

theorem tile_congr (h : t.tiles = s.tiles) (p : TileId) : t.tile p = s.tile p := by rw [tile, tile, h]

theorem rdNat_four_lt (s : State) (a : Nat) : s.rdNat a 4 < 2 ^ 32 := by
  simp only [rdNat, rdBytes, List.range_succ, List.range_zero, List.nil_append, List.cons_append, List.map_cons, List.map_nil,
    leNat, List.foldr_cons, List.foldr_nil]
  bv_omega

end Sys2Proof.Machine.State
end

section
/-!
PROOFS. CLAIM and CLAIM2 (R163, R164): their issue and its causes, the grant of the atomic unit, and the reply with the records.
-/
namespace Sys2Proof.Machine

theorem pcRel_eq_ofInt (pc : W64) (off : W32) : pcRel pc off = BitVec.ofInt 64 (pc.toInt + 8 * off.toInt) := by
  have e : BitVec.ofInt 64 off.toInt = sext off := rfl
  rw [BitVec.ofInt_add, BitVec.ofInt_mul, BitVec.ofInt_toInt, e, pcRel, BitVec.mul_comm]
  rfl

/-! ### Issue -/

section Issue
variable {s : State} {p : TileId} {word : W64} {pair : Bool} {sd sa : BitVec 5} {list : BitVec 12} {off : BitVec 32} {e : ListEntry}

theorem run_claimOp (i : Sparse.wf Tile.reset s.tiles = true) (r : s.ready p [sd, sa]) (he : s.listEntry list = some e)
    (hp : e.pair = pair) (hu : (s.tile p).unentered + (if pair then 2 else 1) ≤ 2) (ha : ((s.tile p).reg sa).toNat % 64 = 0)
    (hd : ((s.tile p).reg sa).toNat + 64 * (if pair then 2 else 1) ≤ sramBytes) (hf : (s.tile p).smemFull = false) :
    s.run (claimOp s p word pair sd sa list 0 off) = .next (s.setTile p { (s.tile p).advance 8 false with
      claims := (s.tile p).claims ++ [⟨list, pair, sd, ((s.tile p).reg sa).toNat,
        BitVec.ofInt 64 ((s.tile p).pc.toInt + 8 * off.toInt), (s.tile p).issueNo + 1, none⟩] }) := by
  rw [← pcRel_eq_ofInt]
  refine State.run_thenTile i r ?_ hf fun _ => rfl
  simp [chkRsv, he, hp, ha, hu, hd, -mul_ite]

theorem run_claimOp_wrong_list (r : s.ready p [sd, sa]) (he : ∀ e, s.listEntry list = some e → e.pair ≠ pair) :
    s.run (claimOp s p word pair sd sa list 0 off) = .next (s.programFault p 0x06 word) := by
  refine State.run_mk_fault r (c := { bad := true, cause := 0x06 }) ?_ (by decide)
  cases hl : s.listEntry list with
  | none => simp [chkRsv]
  | some e => simp [chkRsv, he e hl]

theorem run_claimOp_too_many (r : s.ready p [sd, sa]) (he : s.listEntry list = some e) (hp : e.pair = pair)
    (hu : 2 < (s.tile p).unentered + (if pair then 2 else 1)) :
    s.run (claimOp s p word pair sd sa list 0 off) = .next (s.programFault p 0x07 word) :=
  State.run_mk_fault r (c := { bad := true, cause := 0x07 }) (by simp [chkRsv, he, hp, hu]) (by decide)

theorem run_claimOp_bad_dest (r : s.ready p [sd, sa]) (he : s.listEntry list = some e) (hp : e.pair = pair)
    (hu : (s.tile p).unentered + (if pair then 2 else 1) ≤ 2)
    (hd : ((s.tile p).reg sa).toNat % 64 ≠ 0 ∨ sramBytes < ((s.tile p).reg sa).toNat + 64 * (if pair then 2 else 1)) :
    s.run (claimOp s p word pair sd sa list 0 off) = .next (s.programFault p 0x0A word) :=
  State.run_mk_fault r (c := { bad := true, cause := 0x0A }) (by simpa [chkRsv, he, hp, Nat.not_lt.mpr hu, -mul_ite] using hd) (by decide)

end Issue

/-! ### The grant -/

/-- The indices that the atomic unit grants (R164). -/
def State.grantedIndices (s : State) (e : ListEntry) (pair : Bool) : List Nat :=
  if s.listC e < s.listL e then
    (if pair = true ∧ s.listC e + 1 < s.listL e then [s.listC e, s.listC e + 1] else [s.listC e]) else []

theorem State.grant_indices (s : State) (e : ListEntry) (pair : Bool) :
    (s.grant e pair).1 = (s.grantedIndices e pair).map (BitVec.ofNat 32) := by
  unfold State.grant State.grantedIndices
  dsimp only
  by_cases h : s.listC e < s.listL e
  · by_cases h2 : pair = true ∧ s.listC e + 1 < s.listL e
    · simp [h, h2, List.range_succ]
    · simp [h, h2]
  · simp [h]

theorem State.grant_state (s : State) (e : ListEntry) (pair : Bool) :
    (s.grant e pair).2 = if s.listC e < s.listL e then s.setListC e (s.listC e + (s.grantedIndices e pair).length) else s := by
  unfold State.grant State.grantedIndices
  dsimp only
  by_cases h : s.listC e < s.listL e
  · by_cases h2 : pair = true ∧ s.listC e + 1 < s.listL e
    · simp [h, h2]
    · simp [h, h2]
  · simp [h]

/-- A grant leaves C no higher than L. -/
theorem State.grantedIndices_le (s : State) (e : ListEntry) (pair : Bool) (h : s.listC e < s.listL e) :
    s.listC e + (s.grantedIndices e pair).length ≤ s.listL e := by
  unfold State.grantedIndices
  rw [if_pos h]
  split
  next h2 => exact h2.2
  next => exact h

theorem State.grant_writesOnly {s : State} (w : s.memWf = true) (e : ListEntry) (pair : Bool) :
    s.WritesOnly (s.grant e pair).2 ((List.range 4).map (e.ctr + ·)) := by
  rw [State.grant_state]
  split
  · exact wrNat_writesOnly w _ _ _
  · exact WritesOnly.refl w _

theorem State.counter_clean {s : State} {e : ListEntry} (c : s.poisonedLines ((List.range 8).map (e.ctr + ·)) = [])
    {i : Nat} (hi : i < 8) : s.isPoisoned (e.ctr + i) = false :=
  poisonedLines_eq_nil_iff.mp c _ (List.mem_map_of_mem (List.mem_range.mpr hi))

section Grant
variable {s : State} {e : ListEntry} (w : s.memWf = true) (c : s.poisonedLines ((List.range 8).map (e.ctr + ·)) = [])
include w c

theorem State.listC_grant (pair : Bool) : (s.grant e pair).2.listC e = s.listC e + (s.grantedIndices e pair).length := by
  rw [State.grant_state]
  split
  next h =>
    have hL : s.listL e < 2 ^ 32 := rdNat_four_lt s _
    have hg := s.grantedIndices_le e pair h
    rw [listC, setListC, rdNat_wrNat_of_clean w fun i hi => counter_clean c (by omega)]
    exact Nat.mod_eq_of_lt (by omega)
  next h => simp [State.grantedIndices, h]

theorem State.listL_grant (pair : Bool) : (s.grant e pair).2.listL e = s.listL e := by
  refine (grant_writesOnly w e pair).rdNat_eq (fun i hi => ?_) fun i hi => ?_
  · rw [Nat.add_assoc]
    exact counter_clean c (by omega)
  · simp only [List.mem_map, List.mem_range, not_exists, not_and]
    omega

end Grant

/-- The arrival of a claim at its atomic unit, with the claims, memory additions and accesses before it done (R150, R164). -/
theorem execClaimArrival_grants {s : State} (i : s.Inv) {p : TileId} {k : Nat} {c : OutClaim} {e : ListEntry}
    (hc : (s.tile p).claims[k]? = some c) (he : s.listEntry c.list = some e) (hg : c.granted = none)
    (hk : ∀ i, i < k → ∀ b, (s.tile p).claims[i]? = some b → b.granted ≠ none)
    (hs : ∀ g ∈ (s.tile p).signals, g.target.isMemory = true → c.claimAt ≤ g.issueNo)
    (hb : (s.tile p).smemBefore c.claimAt = false) (hp : s.poisonedLines ((List.range 8).map (e.ctr + ·)) = []) :
    execClaimArrival p k s = .next (((s.grant e c.pair).2.touchAtomic e.ctr).modTile p fun u =>
      { u with claims := u.claims.set k { c with granted := some ((s.grantedIndices e c.pair).map (BitVec.ofNat 32)) } }) := by
  have hk' : ((s.tile p).claims.take k).all (·.granted.isSome) = true := by
    simp only [List.all_eq_true, List.mem_take_iff_getElem, Option.isSome_iff_ne_none]
    rintro b ⟨j, hj, rfl⟩
    exact hk j (by omega) _ (List.getElem?_eq_getElem _)
  have hs' : (s.tile p).signals.all (fun g => !(g.target.isMemory && decide (g.issueNo < c.claimAt))) = true := by
    simp only [List.all_eq_true, Bool.not_eq_true', Bool.and_eq_false_imp, decide_eq_false_iff_not, Nat.not_lt]
    exact hs
  have hclean : (((s.grant e c.pair).2.touchAtomic e.ctr).modTile p fun u =>
      { u with claims := u.claims.set k { c with granted := some ((s.grantedIndices e c.pair).map (BitVec.ofNat 32)) } }).poisonedLines
        ((List.range 8).map (e.ctr + ·)) = [] := by
    rw [State.poisonedLines_eq_nil_iff] at hp ⊢
    intro a ha
    have h := (State.grant_writesOnly i.mem e c.pair).isPoisoned_eq_false (hp a ha)
    simpa [State.isPoisoned] using h
  unfold execClaimArrival
  simp only [hc, he, hg, hk', hb, hs', State.grant_indices]
  simp [State.readByModule_of_clean hclean]

/-! ### The reply -/

/-- The copy of one granted record into the tile's SRAM (R164, R264). -/
def State.copyRecord (p : TileId) (c : OutClaim) (e : ListEntry) (s : State) (x : W32 × Nat) : State :=
  if s.recordAsArmed c.list (e.items + 64 * x.1.toNat) then
    s.wrBytes (sramBase p.1 + c.dest + 64 * x.2) (s.rdBytes (e.items + 64 * x.1.toNat) 64)
  else s.scramble ((List.range 64).map (sramBase p.1 + c.dest + 64 * x.2 + ·))

/-- A granted record is in fitted DDR, as it was when its list was armed, and clean. -/
structure State.RecordInPlace (s : State) (list : BitVec 12) (a : Nat) : Prop where
  inDdr : a + 64 ≤ s.part.ddrEnd
  armed : s.recordAsArmed list a = true
  clean : ∀ j, j < 64 → s.isPoisoned (a + j) = false

theorem ddrEnd_le_sramBase (x : Part) (p : Nat) : x.ddrEnd ≤ sramBase p := by
  unfold Part.ddrEnd sramBase
  split <;> omega

theorem State.rdBytes_length (s : State) (a n : Nat) : (s.rdBytes a n).length = n := by simp [rdBytes]

section Reply
variable {s t : State} {p : TileId} {c : OutClaim} {e : ListEntry}

theorem State.recordAsArmed_congr {list : BitVec 12} {a : Nat} (hj : t.job = s.job)
    (hb : ∀ i, i < 64 → t.peek (a + i) = s.peek (a + i)) : t.recordAsArmed list a = s.recordAsArmed list a := by
  have hall : ∀ m, ((List.range 64).all fun i => t.peek (a + i) == Sparse.get memDefault m (a + i)) =
      (List.range 64).all fun i => s.peek (a + i) == Sparse.get memDefault m (a + i) := fun m => by
    rw [Bool.eq_iff_iff, List.all_eq_true, List.all_eq_true]
    exact forall₂_congr fun i hi => by rw [hb i (List.mem_range.mp hi)]
  unfold recordAsArmed
  simp only [hj, hall]

/-- Writes at and behind a tile's SRAM window leave every record in place. -/
theorem State.RecordInPlace.of_writes {list : BitVec 12} {a : Nat} (h : s.RecordInPlace list a) {l : List Nat} (x : s.WritesOnly t l)
    (hl : ∀ b ∈ l, sramBase p.1 ≤ b) : t.RecordInPlace list a := by
  have hb : ∀ j, j < 64 → t.peek (a + j) = s.peek (a + j) := fun j hj => x.bytes _ fun m => by
    have h1 := hl _ m
    have h2 := h.inDdr
    have h3 := ddrEnd_le_sramBase s.part p.1
    omega
  refine ⟨x.part ▸ h.inDdr, ?_, fun j hj => x.isPoisoned_eq_false (h.clean j hj)⟩
  rw [recordAsArmed_congr x.job hb]
  exact h.armed

theorem State.copyRecord_writesOnly (w : s.memWf = true) (x : W32 × Nat) :
    s.WritesOnly (State.copyRecord p c e s x) ((List.range 64).map (sramBase p.1 + c.dest + 64 * x.2 + ·)) := by
  unfold State.copyRecord
  split
  · have h := wrBytes_writesOnly w (sramBase p.1 + c.dest + 64 * x.2) (s.rdBytes (e.items + 64 * x.1.toNat) 64)
    rwa [rdBytes_length] at h
  · exact scramble_writesOnly w _

/-- A record in place is copied as it stands. -/
theorem State.peek_copyRecord (w : s.memWf = true) {x : W32 × Nat} (h : s.RecordInPlace c.list (e.items + 64 * x.1.toNat)) {j : Nat}
    (hj : j < 64) : (State.copyRecord p c e s x).peek (sramBase p.1 + c.dest + 64 * x.2 + j) = s.peek (e.items + 64 * x.1.toNat + j) := by
  rw [State.copyRecord, if_pos h.armed, peek_wrBytes w, if_pos (by omega), rdBytes_of_clean h.clean]
  simp [hj]

/-- The copies of a reply, from slot `k` of the destination on: they write their slots alone, and each slot holds its record. -/
theorem State.foldl_copyRecord (w : s.memWf = true) (g : List W32) (k : Nat)
    (h : ∀ i ∈ g, s.RecordInPlace c.list (e.items + 64 * i.toNat)) :
    let t := (g.zipIdx k).foldl (State.copyRecord p c e) s
    s.WritesOnly t ((List.range (64 * g.length)).map (sramBase p.1 + c.dest + 64 * k + ·)) ∧
      ∀ n i, g[n]? = some i → ∀ j, j < 64 →
        t.peek (sramBase p.1 + c.dest + 64 * (k + n) + j) = s.peek (e.items + 64 * i.toNat + j) := by
  induction g generalizing s k with
  | nil => exact ⟨WritesOnly.refl w _, fun n i hi => by simp at hi⟩
  | cons i g ih =>
    have first : s.WritesOnly (State.copyRecord p c e s (i, k)) ((List.range 64).map (sramBase p.1 + c.dest + 64 * k + ·)) :=
      copyRecord_writesOnly w (i, k)
    have above : ∀ b ∈ (List.range 64).map (sramBase p.1 + c.dest + 64 * k + ·), sramBase p.1 ≤ b := by
      simp only [List.mem_map]
      rintro b ⟨j, -, rfl⟩
      omega
    obtain ⟨rest, holds⟩ := ih first.form (k + 1) fun x hx => (h x (by simp [hx])).of_writes first above
    have i0 := h i (by simp)
    refine ⟨(first.mono ?_).trans (rest.mono ?_), fun n x hx j hj => ?_⟩
    · simp only [List.mem_map, List.mem_range, List.length_cons]
      rintro b ⟨j, hj, rfl⟩
      exact ⟨j, by omega, rfl⟩
    · simp only [List.mem_map, List.mem_range, List.length_cons]
      rintro b ⟨j, hj, rfl⟩
      exact ⟨64 + j, by omega, by omega⟩
    · cases n with
      | zero =>
        obtain rfl : i = x := by simpa using hx
        rw [List.zipIdx_cons, List.foldl_cons, rest.bytes _ ?_]
        · exact peek_copyRecord w (x := (i, k)) i0 hj
        · simp only [List.mem_map, List.mem_range, not_exists, not_and]
          omega
      | succ n =>
        have hx' : g[n]? = some x := by simpa using hx
        have hm := (h x (List.mem_cons_of_mem _ (List.mem_of_getElem? hx'))).inDdr
        have hd := ddrEnd_le_sramBase s.part p.1
        have := holds n x hx' j hj
        rw [show k + 1 + n = k + (n + 1) by omega] at this
        rw [List.zipIdx_cons, List.foldl_cons, this]
        refine first.bytes _ fun m => ?_
        have := above _ m
        omega

theorem execClaimReply_answers {g : List W32} {rest : List OutClaim} (hc : (s.tile p).claims = c :: rest) (hg : c.granted = some g)
    (he : s.listEntry c.list = some e) (w : s.memWf = true) (h : ∀ i ∈ g, s.RecordInPlace c.list (e.items + 64 * i.toNat)) :
    execClaimReply p 0 s = .next ((g.zipIdx.foldl (State.copyRecord p c e) s).modTile p fun u =>
      { u.setReg c.sd (claimValue g) with
        claims := rest, held := u.held ++ g.map fun i => ⟨c.list, i, c.sd, c.target, c.claimAt⟩ }) := by
  have hw := (State.foldl_copyRecord (p := p) (c := c) (e := e) w g 0 h).1
  have hclean : (g.zipIdx.foldl (State.copyRecord p c e) s).poisonedLines
      (g.flatMap fun i => (List.range 64).map (e.items + 64 * i.toNat + ·)) = [] := by
    rw [State.poisonedLines_eq_nil_iff]
    simp only [List.mem_flatMap, List.mem_map, List.mem_range]
    rintro a ⟨i, hi, j, hj, rfl⟩
    exact hw.isPoisoned_eq_false ((h i hi).clean j hj)
  unfold execClaimReply
  rw [if_neg (by simp)]
  simp only [hc, hg, he]
  exact congrArg _ (State.readByModule_of_clean hclean)

end Reply

/-- Settles O13: the issue of a claim by its checks in order, the grant by what it writes of the counter word, and the reply by the copies
of its records one after another. -/
theorem claimsAreGrantedInOrder : Obligations.ClaimsAreGrantedInOrder := by
  refine ⟨fun s p sd sa list off pair i r => ?_, fun s p k c e i hc he => ⟨?_, ?_⟩⟩
  · have e : exec (if pair then .claim2 p sd sa list 0 off else .claim p sd sa list 0 off) s =
        s.run (claimOp s p (if pair then Layout.claim2 sd sa list 0 off else Layout.claim sd sa list 0 off) pair sd sa list 0 off) := by
      cases pair <;> rfl
    dsimp only
    rw [e]
    exact ⟨fun e he hp hu ha hd hf => run_claimOp i.tiles r he hp hu ha hd hf, fun h => run_claimOp_wrong_list r h,
      fun e he hp => ⟨fun hu => run_claimOp_too_many r he hp hu, fun hu hd => run_claimOp_bad_dest r he hp hu hd⟩⟩
  · intro hg hk hs hb hp
    have hw := State.grant_writesOnly i.mem e c.pair
    have wt : Sparse.wf Tile.reset ((s.grant e c.pair).2.touchAtomic e.ctr).tiles = true := by
      rw [State.touchAtomic_tiles, hw.tiles]
      exact i.tiles
    have ht : ∀ q, ((s.grant e c.pair).2.touchAtomic e.ctr).tile q = s.tile q :=
      State.tile_congr (by rw [State.touchAtomic_tiles, hw.tiles])
    refine ⟨_, execClaimArrival_grants i hc he hg hk hs hb hp, ?_, ?_, ?_, fun q hq => ?_, ?_⟩
    · exact (State.rdNat_congr (by simp) (by simp) _ _).trans (State.listC_grant i.mem hp c.pair)
    · exact (State.rdNat_congr (by simp) (by simp) _ _).trans (State.listL_grant i.mem hp c.pair)
    · intro a ha
      rw [← hw.bytes a ha]
      simp [State.peek]
    · rw [State.tile_modTile wt, if_neg hq, ht]
    · rw [State.tile_modTile wt, if_pos rfl, ht]
      rfl
  · rintro g rfl hg - h
    obtain ⟨rest, hrest⟩ : ∃ rest, (s.tile p).claims = c :: rest := by
      cases hl : (s.tile p).claims with
      | nil => simp [hl] at hc
      | cons b rest => exact ⟨rest, by simpa [hl] using hc⟩
    have hin : ∀ i ∈ g, s.RecordInPlace c.list (e.items + 64 * i.toNat) := fun i hi => by
      obtain ⟨h1, h2, h3⟩ := h i hi
      exact ⟨h1, h2, fun j hj => State.poisonedLines_eq_nil_iff.mp h3 _ (List.mem_map_of_mem (List.mem_range.mpr hj))⟩
    obtain ⟨hw, hcopied⟩ := State.foldl_copyRecord (p := p) (c := c) (e := e) i.mem g 0 hin
    have wt : Sparse.wf Tile.reset (g.zipIdx.foldl (State.copyRecord p c e) s).tiles = true := by
      rw [hw.tiles]
      exact i.tiles
    have ht := State.tile_congr hw.tiles
    refine ⟨_, execClaimReply_answers hrest hg he i.mem hin, ?_, fun q hq => ?_, fun n x hx j hj => ?_, ?_⟩
    · rw [State.tile_modTile wt, if_pos rfl, ht, hrest]
      rfl
    · rw [State.tile_modTile wt, if_neg hq, ht]
    · have := hcopied n x hx j hj
      rw [Nat.zero_add] at this
      exact this
    · exact hw.bytes

end Sys2Proof.Machine
end

section
/-!
PROOFS. The drain of a launch (R171): what it leaves of the module, and that no drained tile issues.
-/
namespace Sys2Proof.Machine

/-- A fold that every element of its list leaves alone. -/
theorem foldl_eq_self {α β : Type} {f : α → β → α} {a : α} {l : List β} (h : ∀ x ∈ l, f a x = a) : l.foldl f a = a := by
  induction l with
  | nil => rfl
  | cons x l ih =>
    rw [List.foldl_cons, h x (by simp)]
    exact ih fun y hy => h y (by simp [hy])

namespace State

/-- From s to t only what a drain reaches changes: memory and the count of free values, the tiles, the waiting and the running
collectives, the assigner and the update units. -/
structure Drains (s t : State) : Prop where
  frame : t = { s with
    mem := t.mem, freeCtr := t.freeCtr, tiles := t.tiles, rtu := t.rtu, steps := { s.steps with units := t.steps.units },
    fabric := { s.fabric with waiting := t.fabric.waiting, colls := t.fabric.colls } }
  waiting : ∀ w ∈ t.fabric.waiting, w ∈ s.fabric.waiting
  colls : ∀ c ∈ t.fabric.colls, c ∈ s.fabric.colls

namespace Drains

variable {s t u : State}

theorem refl (s : State) : s.Drains s := ⟨rfl, fun _ h => h, fun _ h => h⟩

theorem trans (h : s.Drains t) (g : t.Drains u) : s.Drains u := by
  refine ⟨?_, fun w hw => h.waiting w (g.waiting w hw), fun c hc => h.colls c (g.colls c hc)⟩
  rw [g.frame, h.frame]

theorem foldl {β : Type} {f : State → β → State} (h : ∀ x (t : State), t.Drains (f t x)) (xs : List β) (s : State) :
    s.Drains (xs.foldl f s) := by
  induction xs generalizing s with
  | nil => exact refl s
  | cons x xs ih => exact (h x s).trans (ih _)

theorem modTile (s : State) (p : TileId) (f : Tile → Tile) : s.Drains (s.modTile p f) := ⟨rfl, fun _ h => h, fun _ h => h⟩

theorem wr (s : State) (a : Nat) (b : Byte) : s.Drains (s.wr a b) := ⟨rfl, fun _ h => h, fun _ h => h⟩

theorem scramble (s : State) (l : List Nat) : s.Drains (s.scramble l) := by
  have h := foldl (fun (x : Nat × Nat) t => wr t x.1 (Config.freeByte s.freeCtr x.2)) l.zipIdx s
  exact h.trans ⟨rfl, fun _ h => h, fun _ h => h⟩

theorem dropSlots (s : State) (p : TileId) (w : Transfer → Bool) : s.Drains (s.dropSlots p w) := by
  unfold State.dropSlots
  exact (foldl (fun x t => scramble t (t.destBytes p x)) _ s).trans (modTile _ p _)

theorem dropPortWork (s : State) (p : TileId) : s.Drains (s.dropPortWork p) := by
  have h := foldl (fun (c : Coll) t => scramble t (c.dests.flatMap fun d => (List.range d.2).map (d.1 + ·)))
    (s.fabric.colls.filter fun c => c.p == p) s
  unfold State.dropPortWork
  dsimp only
  generalize List.foldl _ s _ = u at h ⊢
  exact h.trans ⟨rfl, fun _ h => List.mem_of_mem_filter h, fun _ h => List.mem_of_mem_filter h⟩

theorem discardWork (s : State) (p : TileId) : s.Drains (s.discardWork p) :=
  ((dropSlots s p _).trans (dropPortWork _ p)).trans (modTile _ p _)

theorem drainTile (s : State) (p : TileId) : s.Drains (s.drainTile p) := by
  unfold State.drainTile
  split
  · exact refl s
  · exact (discardWork s p).trans (modTile _ p _)

theorem drainSet (s : State) : s.Drains s.drainSet := foldl (fun p t => drainTile t p) _ s

theorem launch (h : s.Drains t) : t.launch = s.launch := by rw [h.frame]
theorem job (h : s.Drains t) : t.job = s.job := by rw [h.frame]

end Drains

/-! ### The tiles of a drain -/

/-- From s to t only tile p changes of the tile map, and its sequencer stays in its state. -/
structure KeepsOtherTiles (s t : State) (p : TileId) : Prop where
  form : Sparse.wf Tile.reset t.tiles = true
  others : ∀ q, q ≠ p → t.tile q = s.tile q
  going : (t.tile p).state = (s.tile p).state

namespace KeepsOtherTiles

variable {s t u : State} {p : TileId}

theorem trans (h : s.KeepsOtherTiles t p) (g : t.KeepsOtherTiles u p) : s.KeepsOtherTiles u p :=
  ⟨g.form, fun q hq => (g.others q hq).trans (h.others q hq), g.going.trans h.going⟩

theorem of_tiles (w : Sparse.wf Tile.reset s.tiles = true) (h : t.tiles = s.tiles) : s.KeepsOtherTiles t p :=
  ⟨h ▸ w, fun q _ => tile_congr h q, congrArg Tile.state (tile_congr h p)⟩

theorem modTile (w : Sparse.wf Tile.reset s.tiles = true) {f : Tile → Tile} (h : ∀ t, (f t).state = t.state) :
    s.KeepsOtherTiles (s.modTile p f) p :=
  ⟨setTile_tiles_wf w p _, fun q hq => by rw [tile_modTile w, if_neg hq], by rw [tile_modTile w, if_pos rfl, h]⟩

theorem scramble_tiles (s : State) (l : List Nat) : (s.scramble l).tiles = s.tiles := by
  have h : ∀ (k : List (Nat × Nat)) (n : Nat) (s : State),
      (k.foldl (fun s x => s.wr x.1 (Config.freeByte n x.2)) s).tiles = s.tiles := by
    intro k n
    induction k with
    | nil => exact fun s => rfl
    | cons x k ih => exact fun s => ih _
  exact h _ _ s

theorem foldl_scramble_tiles {β : Type} (f : State → β → List Nat) (l : List β) (s : State) :
    (l.foldl (fun t x => t.scramble (f t x)) s).tiles = s.tiles := by
  induction l generalizing s with
  | nil => rfl
  | cons x l ih => exact (ih _).trans (scramble_tiles s _)

theorem discardWork (w : Sparse.wf Tile.reset s.tiles = true) : s.KeepsOtherTiles (s.discardWork p) p := by
  have slots : s.KeepsOtherTiles (s.dropSlots p fun _ => true) p := by
    unfold State.dropSlots
    refine (of_tiles w (foldl_scramble_tiles (fun t x => t.destBytes p x) _ s)).trans (modTile ?_ fun _ => rfl)
    rw [foldl_scramble_tiles fun t x => t.destBytes p x]
    exact w
  have port : (s.dropSlots p fun _ => true).KeepsOtherTiles ((s.dropSlots p fun _ => true).dropPortWork p) p := by
    have h := foldl_scramble_tiles (fun _ (c : Coll) => c.dests.flatMap fun d => (List.range d.2).map (d.1 + ·))
      ((s.dropSlots p fun _ => true).fabric.colls.filter fun c => c.p == p) (s.dropSlots p fun _ => true)
    unfold State.dropPortWork
    dsimp only
    generalize List.foldl _ (s.dropSlots p fun _ => true) _ = u at h ⊢
    exact of_tiles slots.form h
  exact (slots.trans port).trans (modTile port.form fun _ => rfl)

end KeepsOtherTiles

/-- A tile whose sequencer neither issues nor waits to. -/
def Stopped (s : State) (p : TileId) : Prop := (s.tile p).state ∉ [SeqState.issuing, .inWaitt, .atMark]

variable {s : State} {p q : TileId}

theorem drainTile_wf (w : Sparse.wf Tile.reset s.tiles = true) (p : TileId) :
    Sparse.wf Tile.reset (s.drainTile p).tiles = true := by
  unfold drainTile
  split
  · exact w
  · exact setTile_tiles_wf (KeepsOtherTiles.discardWork w).form p _

theorem drainTile_others (w : Sparse.wf Tile.reset s.tiles = true) (h : q ≠ p) : (s.drainTile p).tile q = s.tile q := by
  unfold drainTile
  split
  · rfl
  · have d := KeepsOtherTiles.discardWork (p := p) w
    rw [tile_modTile d.form, if_neg h, d.others q h]

theorem drainTile_stopped (w : Sparse.wf Tile.reset s.tiles = true) (p : TileId) : (s.drainTile p).Stopped p := by
  unfold Stopped drainTile
  split
  next h => rcases h with h | h <;> simp [h]
  next =>
    rw [tile_modTile (KeepsOtherTiles.discardWork w).form, if_pos rfl]
    dsimp only
    split
    next h => rcases h with h | h <;> simp [h]
    next => simp

/-- After a drain of a list of tiles each of them has stopped. -/
theorem foldl_drainTile_stopped (w : Sparse.wf Tile.reset s.tiles = true) (l : List TileId) (h : q ∈ l ∨ s.Stopped q) :
    (l.foldl drainTile s).Stopped q := by
  induction l generalizing s with
  | nil => exact h.resolve_left (by simp)
  | cons p l ih =>
    refine ih (drainTile_wf w p) ?_
    by_cases hq : q = p
    · exact .inr (hq ▸ drainTile_stopped w p)
    · refine h.imp (fun m => (List.mem_cons.mp m).resolve_left hq) fun m => ?_
      unfold Stopped
      rw [drainTile_others w hq]
      exact m

theorem drainSet_stopped (w : Sparse.wf Tile.reset s.tiles = true) (h : q ∈ s.jobTiles) : s.drainSet.Stopped q :=
  foldl_drainTile_stopped w _ (.inl h)

end State

end Sys2Proof.Machine
end

section
/-!
PROOFS. START, CANCEL and the return to IDLE (R143, R144, R147, R148, R171).
-/
namespace Sys2Proof.Machine

/-! ### START and CANCEL -/

theorem State.noteEnd_pendingEnd (s : State) (e : BitVec 3) : e.toNat ≤ (s.noteEnd e).launch.pendingEnd.toNat := by
  change e.toNat ≤ (if s.launch.pendingEnd < e then e else s.launch.pendingEnd).toNat
  split
  · exact Nat.le_refl _
  · bv_omega

section Control
variable {s : State} (pow : s.powered = true)
include pow

theorem exec_start (b : Bool) : exec (.start b) s = .next (s.writeLaunchCtl true b) := by
  change execStart b s = _
  rw [execStart, State.whenPowered, if_pos pow]

theorem exec_cancel (b : Bool) : exec (.cancel b) s = .next (s.writeLaunchCtl b true) := by
  change execCancel b s = _
  rw [execCancel, State.whenPowered, if_pos pow]

/-- At rest START is taken, CANCEL alone does nothing, and both together are a START. -/
theorem start_and_cancel_at_rest (b : Bool) (h : s.launch.run = false) :
    exec (.start b) s = .next { s with launch := { s.launch with run := true, st := 1 } } ∧
      exec (.cancel false) s = .next s ∧ exec (.cancel true) s = exec (.start false) s := by
  simp [exec_start pow, exec_cancel pow, State.writeLaunchCtl, h, State.takeStart, State.modLaunch]

/-- While a launch runs START is flagged, and a CANCEL beside it is taken as it is alone. -/
theorem start_while_running (h : s.launch.run = true) :
    let flagged := s.modLaunch fun l => { l with writeWhileRun := true }
    exec (.start false) s = .next flagged ∧ exec (.start true) s = exec (.cancel false) flagged ∧
      exec (.cancel true) s = exec (.start true) s := by
  intro flagged
  have pow' : flagged.powered = true := pow
  refine ⟨?_, ?_, ?_⟩
  · simp [exec_start pow, State.writeLaunchCtl, h, flagged]
  · simp [exec_start pow, exec_cancel pow', State.writeLaunchCtl, h, flagged]
  · rw [exec_start pow, exec_cancel pow]

theorem exec_cancel_running (h : s.launch.run = true) : exec (.cancel false) s = .next s.takeCancel := by
  simp [exec_cancel pow, State.writeLaunchCtl, h]

/-- A CANCEL during the checks ends the launch before any tile starts (R144). -/
theorem cancel_while_checking (h : s.launch.run = true) (hst : s.launch.st = 1) :
    ∃ t, exec (.cancel false) s = .next t ∧ t.launch = { s.launch with
      cancelSeen := true, run := false, st := 0, endCode := 2, endIrq := true } ∧ t.tiles = s.tiles ∧ t.mem = s.mem := by
  refine ⟨_, exec_cancel_running pow h, ?_⟩
  rw [State.takeCancel, if_pos (by simpa [State.modLaunch] using hst)]
  exact ⟨rfl, rfl, rfl⟩

/-- A CANCEL of an accepted launch drains its tiles (R171). -/
theorem cancel_while_active (w : Sparse.wf Tile.reset s.tiles = true) (h : s.launch.run = true) (hst : 2 ≤ s.launch.st.toNat) :
    ∃ t, exec (.cancel false) s = .next t ∧ t.launch.cancelSeen = true ∧ t.launch.st = 3 ∧
      2 ≤ t.launch.pendingEnd.toNat ∧ ∀ p ∈ s.jobTiles, (t.tile p).state ∉ [SeqState.issuing, .inWaitt, .atMark] := by
  refine ⟨_, exec_cancel_running pow h, ?_⟩
  have h1 : ¬ s.launch.st = 1 := fun e => by rw [e] at hst; exact absurd hst (by decide)
  have active : State.launchActive (s.modLaunch fun l => { l with cancelSeen := true }) = true := by
    simp [State.launchActive, State.modLaunch, h, hst]
  have e : s.takeCancel = ((s.modLaunch fun l => { l with cancelSeen := true }).noteEnd 2).drainSet := by
    rw [State.takeCancel, if_neg (by simpa [State.modLaunch] using h1), State.cancelLaunch, if_pos active]
  rw [e, (State.Drains.drainSet _).launch]
  exact ⟨rfl, rfl, State.noteEnd_pendingEnd _ 2, fun p hp => State.drainSet_stopped w hp⟩

end Control

/-! ### The return to IDLE -/

theorem launchIdle_waits {s : State} (h : ∃ p ∈ s.jobTiles, s.atRest p = false) : exec .launchIdle s = .next s := by
  change execLaunchIdle s = _
  have : s.jobTiles.any (fun p => !s.atRest p) = true := by simpa using h
  rw [execLaunchIdle, if_pos (.inr this)]

section Idle
variable {s : State} (active : s.launchActive = true)
include active

theorem execLaunchIdle_at_rest (h : ∀ p ∈ s.jobTiles, s.atRest p = true) :
    exec .launchIdle s = if s.launch.st = 2 then
        if s.launch.completed ∧ s.jobTiles.all (fun p => (s.tile p).state == .halted) then .next (s.endLaunch 1) else .next s
      else .next (s.endLaunch (if s.launch.pendingEnd = 0 then 1 else s.launch.pendingEnd)) := by
  change execLaunchIdle s = _
  rw [execLaunchIdle, if_neg (by simpa [active] using h)]

theorem launchIdle_completes (h : ∀ p ∈ s.jobTiles, s.atRest p = true) (hst : s.launch.st = 2) (hc : s.launch.completed = true)
    (hh : ∀ p ∈ s.jobTiles, (s.tile p).state = .halted) :
    ∃ t, exec .launchIdle s = .next t ∧ t.job = none ∧ t.fabric.job = none ∧ t.mem = s.mem ∧ t.launch = { s.launch with
      run := false, st := 0, endCode := 1, endIrq := true, pendingEnd := 0, completed := false } := by
  have settled : s.jobTiles.foldl State.settleTile s = s := foldl_eq_self fun p hp => by
    rw [State.settleTile, if_neg (by simp [hh p hp])]
  refine ⟨s.endLaunch 1, ?_, ?_⟩
  · rw [execLaunchIdle_at_rest active h, if_pos hst, if_pos ⟨hc, by simpa using hh⟩]
  · rw [State.endLaunch, settled]
    exact ⟨rfl, rfl, rfl, rfl⟩

theorem launchIdle_ends (h : ∀ p ∈ s.jobTiles, s.atRest p = true) (hst : s.launch.st = 3) (he : s.launch.pendingEnd ≠ 0) :
    ∃ t, exec .launchIdle s = .next t ∧ t.job = none ∧ t.fabric.job = none ∧
      t.launch.run = false ∧ t.launch.st = 0 ∧ t.launch.endCode = s.launch.pendingEnd ∧ t.launch.endIrq = true := by
  refine ⟨s.endLaunch s.launch.pendingEnd, ?_, rfl, rfl, rfl, rfl, rfl, rfl⟩
  rw [execLaunchIdle_at_rest active h, if_neg (by simp [hst]), if_neg he]

end Idle

/-! ### The checks and a refusal (R145) -/

namespace State

/-- Without poison the checks come down to the first that fails. -/
theorem runChecks_of_clean {s : State} (hp : s.poisoned = []) (l : List LaunchCheck) :
    s.runChecks l = ((l.find? fun c => !c.ok).map (·.code), s) := by
  induction l with
  | nil => rfl
  | cons c l ih =>
    have hc : s.checkPoison c = [] := by simp [checkPoison, hp]
    rw [runChecks, hc]
    cases h : c.ok <;> simp [h, ih]

theorem refuse_frame (s : State) (code : Byte) : (s.refuse code).launch = { s.launch with
      refuse := code, endCode := 5, endIrq := true, run := false, st := 0 } ∧ (s.refuse code).tiles = s.tiles ∧
    (s.refuse code).mem = s.mem ∧ (s.refuse code).job = s.job := by
  unfold refuse
  dsimp only
  split
  · exact ⟨rfl, rfl, rfl, rfl⟩
  · split <;> exact ⟨rfl, rfl, rfl, rfl⟩

end State

section Checks
variable {s : State} (run : s.launch.run = true) (hst : s.launch.st = 1) (hp : s.poisoned = [])
include run hst hp

theorem launchChecks_refuse {c : LaunchCheck} (hc : s.launchChecks.find? (fun c => !c.ok) = some c) :
    exec .launchChecks s = .next (s.refuse c.code) := by
  change execLaunchChecks s = _
  rw [execLaunchChecks, if_neg (by simp [run, hst]), State.runChecks_of_clean hp, hc]
  rfl

theorem launchChecks_accept (h : ∀ c ∈ s.launchChecks, c.ok = true) : exec .launchChecks s = .next s.accept := by
  have hc : s.launchChecks.find? (fun c => !c.ok) = none := by simpa using h
  change execLaunchChecks s = _
  rw [execLaunchChecks, if_neg (by simp [run, hst]), State.runChecks_of_clean hp, hc]
  rfl

end Checks

end Sys2Proof.Machine
end

section
/-!
PROOFS. What a launch holds to once it is accepted (R146), through the messages that its module sends (R326, R329), a fault, the join and
the start of a restore (R383): its job, the host tallies, the launch registers but for what a fault or a completion notes, its step, the
numbers of its collectives, and the plan, rank and masks of its join.
-/
namespace Sys2Proof.Machine

/-! ### Messages -/

/-- The join but for what sending a frame keeps in it. -/
def Join.unsent (j : Join) : Join := { j with deadGrafts := [], wrr := [] }

theorem Join.fields_of_unsent {j k : Join} (h : j.unsent = k.unsent) :
    j.present = k.present ∧ j.rank = k.rank ∧ j.joins = k.joins ∧ j.j = k.j ∧ j.joined = k.joined := by
  simp only [Join.unsent, Join.mk.injEq] at h
  obtain ⟨-, -, hr, hp, -, hm, -, hj, hd, -⟩ := h
  exact ⟨hp, hr, hm, hj, hd⟩

namespace State

/-- From s to t only frames have been sent or left waiting. -/
structure Sends (s t : State) : Prop where
  frame : t = { s with
    light := t.light, freeCtr := t.freeCtr
    fabric := { s.fabric with
      txFrames := t.fabric.txFrames, grafted := t.fabric.grafted, job := t.fabric.job, backlog := t.fabric.backlog,
      next8 := t.fabric.next8 } }
  join : t.fabric.job.map Join.unsent = s.fabric.job.map Join.unsent

namespace Sends

variable {s t u : State}

theorem refl (s : State) : s.Sends s := ⟨rfl, rfl⟩

theorem trans (h : s.Sends t) (g : t.Sends u) : s.Sends u := by
  refine ⟨?_, g.join.trans h.join⟩
  rw [g.frame, h.frame]

theorem foldl {β : Type} {f : State → β → State} (h : ∀ x (t : State), t.Sends (f t x)) (xs : List β) (s : State) :
    s.Sends (xs.foldl f s) := by
  induction xs generalizing s with
  | nil => exact refl s
  | cons x xs ih => exact (h x s).trans (ih _)

theorem launch (h : s.Sends t) : t.launch = s.launch := by rw [h.frame]

theorem linkSend (s : State) (q : PlaneId) (c : PairId) (f : Frame) (o : Option (PlaneId × PairId)) : s.Sends (s.linkSend q c f o) := by
  unfold State.linkSend
  dsimp only
  split
  · exact ⟨rfl, rfl⟩
  · exact refl s

theorem sendOwn (s : State) (q : PlaneId) (c : PairId) (via : Bool) (f : Frame) : s.Sends (s.sendOwn q c via f) :=
  (linkSend s q c _ none).trans ⟨rfl, rfl⟩

theorem trySend {d : Nat} {f : Frame} (h : s.trySend d f = some t) : s.Sends t := by
  unfold State.trySend at h
  split at h
  next => cases h
  next j hj =>
    dsimp only at h
    split at h
    next => cases h
    next =>
      split at h
      next => cases h
      next p _ =>
        obtain ⟨x, -, rfl⟩ := Option.map_eq_some_iff.mp h
        exact (sendOwn s x.1 x.2 p.graft.isSome f).trans ⟨rfl, by rw [(sendOwn s _ _ _ _).join, hj]; rfl⟩

theorem sendNow (s : State) (d : Nat) (f : Frame) : s.Sends (s.sendNow d f) := by
  unfold State.sendNow
  dsimp only
  split
  · exact ⟨rfl, rfl⟩
  · cases h : s.trySend d f with
    | none => exact ⟨rfl, rfl⟩
    | some t => exact trySend h

theorem reviveGrafts (s : State) (d : Nat) : s.Sends (s.reviveGrafts d) := by
  unfold State.reviveGrafts
  split
  next => exact refl s
  next j hj =>
    split
    · exact ⟨rfl, by rw [hj]; rfl⟩
    · exact refl s

theorem sendPlan (s : State) (d : Nat) (f : Frame) : s.Sends (s.sendPlan d f) := (reviveGrafts s d).trans (sendNow _ d f)

theorem sendTo (s : State) (r : Nat) (f : Frame) : s.Sends (s.sendTo r f) := by
  unfold State.sendTo
  split
  · exact sendPlan s _ f
  · exact refl s

theorem sendKind8 (s : State) (d : Nat) (g : BitVec 8) (c : W32) (head body : List Byte) : s.Sends (s.sendKind8 d g c head body) := by
  unfold State.sendKind8
  refine Sends.trans (t := s.modFabric fun b => { b with
    next8 := setCount b.next8 d (countOf s.fabric.next8 d + 1 + bodyFrames body.length) }) ⟨rfl, rfl⟩ ?_
  exact (sendTo _ _ _).trans (foldl (fun i t => sendTo t _ _) _ _)

theorem sendJoinTo (s : State) (j : Join) (c : Bool) (m : W32) : s.Sends (s.sendJoinTo j c m) := foldl (fun d t => sendPlan t d _) _ s

/-- The join of a launch stays while its frames go out. -/
theorem join_some {k : Join} (h : s.Sends t) (hk : s.fabric.job = some k) :
    ∃ k', t.fabric.job = some k' ∧ k'.unsent = k.unsent := by
  have e := h.join
  rw [hk, Option.map_some, Option.map_eq_some_iff] at e
  exact e

end Sends

end State

/-! ### What an accepted launch holds to -/

/-- The launch registers but for what a fault, a drain or a completion notes. -/
def LaunchRegs.steady (l : LaunchRegs) : LaunchRegs :=
  { l with st := 0, faultTile := 0, faultCause := 0, faultHardware := false, faultValid := false, pendingEnd := 0, completed := false,
           doneIrq := false }

/-- The steps but for the units of update requests and what a restore collects. -/
def Steps.steady (x : Steps) : Steps := { x with units := [], invs := [], chosen := none, restoreCause := 0, restoreDigest := 0 }

/-- The join as it was at acceptance. -/
def Join.accepted (j : Join) : Join := { j.unsent with joins := [], confirms := [], j := none, joined := false }

theorem Join.fields_of_accepted {j k : Join} (h : j.accepted = k.accepted) :
    j.plan = k.plan ∧ j.copy1 = k.copy1 ∧ j.rank = k.rank ∧ j.present = k.present ∧ j.relays = k.relays := by
  simp only [Join.accepted, Join.unsent, Join.mk.injEq] at h
  obtain ⟨hp, hc, hr, hm, hl, -⟩ := h
  exact ⟨hp, hc, hr, hm, hl⟩

/-- What an accepted launch holds to. -/
structure LaunchCore where
  job : Option Job
  hostTallies : Vector W32 64
  launch : LaunchRegs
  steps : Steps
  join : Option Join
  groupCtr : Vector Nat 16
  heldJoins : List JoinMsg
  heldConfirms : List ConfirmMsg

namespace State

def launchCore (s : State) : LaunchCore :=
  ⟨s.job, s.hostTallies, s.launch.steady, s.steps.steady, s.fabric.job.map Join.accepted, s.fabric.groupCtr, s.fabric.heldJoins,
    s.fabric.heldConfirms⟩

/-- No collective has been issued. -/
def Quiet (s : State) : Prop := s.fabric.waiting = [] ∧ s.fabric.colls = []

/-- The launch holds to its core, and no collective is issued. -/
structure KeepsLaunch (s t : State) : Prop where
  core : t.launchCore = s.launchCore
  quiet : s.Quiet → t.Quiet

namespace KeepsLaunch

variable {s t u : State}

theorem refl (s : State) : s.KeepsLaunch s := ⟨rfl, id⟩

theorem trans (h : s.KeepsLaunch t) (g : t.KeepsLaunch u) : s.KeepsLaunch u :=
  ⟨g.core.trans h.core, fun q => g.quiet (h.quiet q)⟩

theorem foldl {β : Type} {f : State → β → State} (h : ∀ x (t : State), t.KeepsLaunch (f t x)) (xs : List β) (s : State) :
    s.KeepsLaunch (xs.foldl f s) := by
  induction xs generalizing s with
  | nil => exact refl s
  | cons x xs ih => exact (h x s).trans (ih _)

/-- The same for operations that need the quiet to keep it. -/
theorem foldl_quiet {β : Type} {f : State → β → State} (h : ∀ x (t : State), t.Quiet → t.KeepsLaunch (f t x)) (xs : List β)
    (q : s.Quiet) : s.KeepsLaunch (xs.foldl f s) := by
  induction xs generalizing s with
  | nil => exact refl s
  | cons x xs ih => exact (h x s q).trans (ih ((h x s q).quiet q))

theorem of_sends (h : s.Sends t) : s.KeepsLaunch t := by
  have e : t.fabric.job.map Join.accepted = s.fabric.job.map Join.accepted := by
    have h1 : ∀ o : Option Join, o.map Join.accepted = (o.map Join.unsent).map Join.accepted := fun o => by
      rw [Option.map_map]
      rfl
    rw [h1, h.join, ← h1]
  have f := h.frame
  constructor
  · unfold launchCore
    rw [e, f]
  · unfold Quiet
    rw [f]
    exact id

theorem of_drains (h : s.Drains t) : s.KeepsLaunch t := by
  have f := h.frame
  constructor
  · unfold launchCore
    rw [f]
    rfl
  · exact fun q => ⟨List.eq_nil_iff_forall_not_mem.mpr fun w hw => by simpa [q.1] using h.waiting w hw,
      List.eq_nil_iff_forall_not_mem.mpr fun c hc => by simpa [q.2] using h.colls c hc⟩

theorem setJoin {j k : Join} (hj : s.fabric.job = some j) (h : k.accepted = j.accepted) : s.KeepsLaunch (s.setJoin k) := by
  refine ⟨?_, id⟩
  unfold launchCore
  rw [hj, Option.map_some, ← h]
  rfl

theorem noteEnd (s : State) (e : BitVec 3) : s.KeepsLaunch (s.noteEnd e) := ⟨rfl, id⟩

theorem reportFault (s : State) (n : Nat) (c : Byte) (h : Bool) : s.KeepsLaunch (s.reportFault n c h) := by
  unfold State.reportFault
  split
  · exact refl s
  · exact ⟨rfl, id⟩

theorem moduleHwFault (s : State) (c : Byte) : s.KeepsLaunch (s.moduleHwFault c) := by
  unfold State.moduleHwFault
  split
  · exact ((reportFault s _ _ _).trans (noteEnd _ _)).trans (of_drains (Drains.drainSet _))
  · exact refl s

theorem moduleProgFault (s : State) (c : Byte) : s.KeepsLaunch (s.moduleProgFault c) := by
  unfold State.moduleProgFault
  split
  · exact ((reportFault s _ _ _).trans (noteEnd _ _)).trans (of_drains (Drains.drainSet _))
  · exact refl s

theorem checkDone (s : State) : s.KeepsLaunch s.checkDone := by
  unfold State.checkDone
  split
  · split
    · exact ⟨rfl, id⟩
    · exact refl s
  · exact refl s

theorem checkPeers (s : State) : s.KeepsLaunch s.checkPeers := by
  unfold State.checkPeers
  split
  · exact refl s
  · split
    · exact moduleHwFault s _
    · exact refl s

theorem discard (s : State) : s.KeepsLaunch s.discard := ⟨rfl, id⟩

theorem startColls (q : s.Quiet) : s.KeepsLaunch s.startColls := by
  unfold State.startColls
  split
  · exact refl s
  · split
    · exact refl s
    · dsimp only
      rw [q.1]
      exact ⟨rfl, fun q => ⟨rfl, q.2⟩⟩

/-! ### The restore -/

theorem stepsMod (s : State) {f : Steps → Steps} (h : ∀ x, (f x).steady = x.steady) : s.KeepsLaunch (s.stepsMod f) := by
  refine ⟨?_, id⟩
  unfold launchCore
  rw [← h s.steps]
  rfl

theorem restoreFail (s : State) (c : BitVec 4) : s.KeepsLaunch (s.restoreFail c) := by
  refine (stepsMod s ?_).trans (moduleHwFault _ _)
  exact fun _ => rfl

theorem trySelect (s : State) (c : Image) : s.KeepsLaunch (s.trySelect c) := by
  unfold State.trySelect
  dsimp only
  split
  · exact refl s
  · split
    · exact restoreFail s _
    · exact stepsMod s fun _ => rfl

theorem restoreStart (s : State) : s.KeepsLaunch s.restoreStart := by
  unfold State.restoreStart
  split
  · exact refl s
  · split
    · exact refl s
    · refine ((stepsMod s ?_).trans (of_sends (Sends.foldl (fun d t => Sends.sendKind8 t d _ _ _ _) _ _))).trans (trySelect _ _)
      exact fun _ => rfl

end KeepsLaunch

/-! ### The join -/

/-- The first part of a step of the join: J, once the present masks of all are in (R326). -/
def formJob (s : State) (j : Join) : State := match j.j with
  | some _ => s
  | none =>
    if ((maskRanks j.present).filter (· != j.rank)).all fun d => j.joins.any fun x => x.1 == d then
      let m := j.andMasks
      let j' := { j with j := some m }
      if !m.getLsbD j.rank || decide ((maskRanks m).length < Plan.minrank j.plan) ||
          (!Plan.close j.plan && (maskRanks m).length != Plan.nmemb j.plan) then
        (s.setJoin j').moduleProgFault 0x7A
      else ((s.setJoin j').sendJoinTo j' true m).checkPeers
    else s

/-- The second: the CONFIRMs, and with all in its completion (R326). -/
def completeJoin (s : State) : State := match s.fabric.job with
  | some j => match j.j with
    | some m =>
      if j.joined || !s.launchActive then s
      else if j.confirms.any fun x => x.2 != m then s.moduleProgFault 0x7A
      else if ((maskRanks m).filter (· != j.rank)).all fun d => j.confirms.any fun x => x.1 == d then
        ((s.setJoin { j with joined := true }).startColls).restoreStart
      else s
    | none => s
  | none => s

theorem joinStep_of_none {s : State} (h : s.fabric.job = none) : s.joinStep = s := by
  unfold joinStep
  rw [h]

theorem joinStep_of_some {s : State} {j : Join} (h : s.fabric.job = some j) : s.joinStep = (s.formJob j).completeJoin := by
  unfold joinStep
  rw [h]
  rfl

/-- A join that no other member has answered waits (R326). -/
theorem joinStep_waits {s : State} {k : Join} (h : s.fabric.job = some k) (hj : k.j = none) (hm : k.joins = [])
    (ho : ∃ r ∈ maskRanks k.present, r ≠ k.rank) : s.joinStep = s := by
  have hw : (((maskRanks k.present).filter (· != k.rank)).all fun d => k.joins.any fun x => x.1 == d) = false := by
    obtain ⟨r, hr, hn⟩ := ho
    rw [List.all_eq_false]
    exact ⟨r, List.mem_filter.mpr ⟨hr, by simpa using hn⟩, by simp [hm]⟩
  have h1 : s.formJob k = s := by
    unfold formJob
    simp [hj, hw]
  rw [joinStep_of_some h, h1]
  unfold completeJoin
  simp [h, hj]

namespace KeepsLaunch

variable {s t : State}

theorem formJob {j : Join} (h : s.fabric.job = some j) : s.KeepsLaunch (s.formJob j) := by
  have formed : s.KeepsLaunch (s.setJoin { j with j := some j.andMasks }) := setJoin h rfl
  unfold State.formJob
  split
  · exact refl s
  · split
    · dsimp only
      split
      · exact formed.trans (moduleProgFault _ _)
      · exact (formed.trans (of_sends (Sends.sendJoinTo _ _ _ _))).trans (checkPeers _)
    · exact refl s

theorem completeJoin (q : s.Quiet) : s.KeepsLaunch s.completeJoin := by
  unfold State.completeJoin
  split
  next j hj =>
    split
    · split
      · exact refl s
      · split
        · exact moduleProgFault s _
        · split
          · have joined : s.KeepsLaunch (s.setJoin { j with joined := true }) := setJoin hj rfl
            exact (joined.trans (startColls (joined.quiet q))).trans (restoreStart _)
          · exact refl s
    · exact refl s
  next => exact refl s

theorem joinStep (q : s.Quiet) : s.KeepsLaunch s.joinStep := by
  cases h : s.fabric.job with
  | none => rw [joinStep_of_none h]; exact refl s
  | some j => rw [joinStep_of_some h]; exact (formJob h).trans (completeJoin ((formJob h).quiet q))

theorem takeJoin (q : s.Quiet) (m : JoinMsg) : s.KeepsLaunch (s.takeJoin m) := by
  unfold State.takeJoin
  split
  next => exact discard s
  next j hj =>
    split
    · split
      · exact discard s
      · exact refl s
    · split
      · exact moduleProgFault s _
      · split
        · exact refl s
        · split
          · refine (setJoin hj ?_).trans (joinStep q)
            rfl
          · exact discard s

theorem takeConfirm (q : s.Quiet) (m : ConfirmMsg) : s.KeepsLaunch (s.takeConfirm m) := by
  unfold State.takeConfirm
  split
  next => exact discard s
  next j hj =>
    split
    · exact discard s
    · split
      · exact refl s
      · split
        · exact moduleProgFault s _
        · split
          · refine (setJoin hj ?_).trans (joinStep q)
            rfl
          · exact discard s

end KeepsLaunch

/-! ### The fabric's part of an acceptance (R326, R467) -/

/-- The join of a new launch. -/
def newJoin (s : State) (plan : Image) (copy1 : Bool) : Join :=
  { plan := plan, copy1 := copy1, rank := (recordOf plan (Plan.nmemb plan) ownFpr).getD 0,
    present := s.presentMask plan 0 (Plan.nmemb plan), relays := s.presentMask plan (Plan.nmemb plan) (Plan.nmod plan),
    joins := [], confirms := [], j := none, joined := false, deadGrafts := [], wrr := [] }

/-- The fabric with a new launch in it, before its first message. -/
def joinEntered (s : State) (plan : Image) (copy1 : Bool) : State := s.modFabric fun b =>
  { b with job := some (s.newJoin plan copy1), heldJoins := [], heldConfirms := [], groupCtr := Vector.replicate 16 0, pairCtr := [],
           waiting := [], colls := [], early := [], backlog := [], grafted := [], parts := [], seen8 := [], next8 := [] }

/-- The same with its JOINs sent. -/
def joinsSent (s : State) (plan : Image) (copy1 : Bool) : State :=
  (s.joinEntered plan copy1).sendJoinTo (s.newJoin plan copy1) false (s.newJoin plan copy1).present

theorem fabricAccept_keeps (s : State) (plan : Image) (copy1 : Bool) : (s.joinEntered plan copy1).KeepsLaunch (s.fabricAccept plan copy1) := by
  have sent : (s.joinEntered plan copy1).KeepsLaunch (s.joinsSent plan copy1) := .of_sends (Sends.sendJoinTo _ _ _ _)
  have q : (s.joinsSent plan copy1).Quiet := sent.quiet ⟨rfl, rfl⟩
  unfold fabricAccept
  dsimp only
  split
  · exact sent.trans (.moduleProgFault _ _)
  · have joins := (KeepsLaunch.joinStep q).trans
      (.foldl_quiet (fun m t q => .takeJoin q m) (s.fabric.heldJoins.filter fun m => m.jobtag == s.ownTag)
        ((KeepsLaunch.joinStep q).quiet q))
    exact (sent.trans joins).trans (.foldl_quiet (fun m t q => .takeConfirm q m) _ (joins.quiet q))

/-- Without a message held for the launch, and with another member present, only the JOINs go out. -/
theorem fabricAccept_waits {s : State} {plan : Image} {copy1 : Bool} (hj : ∀ m ∈ s.fabric.heldJoins, m.jobtag ≠ s.ownTag)
    (hc : ∀ m ∈ s.fabric.heldConfirms, m.jobtag ≠ s.ownTag)
    (ho : ∃ r ∈ maskRanks (s.newJoin plan copy1).present, r ≠ (s.newJoin plan copy1).rank) :
    s.fabricAccept plan copy1 = s.joinsSent plan copy1 := by
  have h1 : s.fabric.heldJoins.filter (fun m => m.jobtag == s.ownTag) = [] := by simpa using hj
  have h2 : s.fabric.heldConfirms.filter (fun m => m.jobtag == s.ownTag) = [] := by simpa using hc
  have waits : (s.joinsSent plan copy1).joinStep = s.joinsSent plan copy1 := by
    obtain ⟨k, hk, e⟩ := (Sends.sendJoinTo (s.joinEntered plan copy1) (s.newJoin plan copy1) false _).join_some (k := s.newJoin plan copy1) rfl
    obtain ⟨hp, hr, hm, hn, -⟩ := Join.fields_of_unsent e
    refine joinStep_waits hk hn hm ?_
    rw [hp, hr]
    exact ho
  unfold fabricAccept
  rw [h1, h2]
  exact waits

end State

end Sys2Proof.Machine
end

section
/-!
PROOFS. The acceptance of a launch step by step (R146): what stands once its tables are armed, its host tallies are zero, its tiles issue
and its steps begin, before the fabric or a restore does anything.
-/
namespace Sys2Proof.Machine

namespace State

/-! ### Memory -/

/-- From s to t only bytes of memory, poison and the ports change. -/
def OnlyMemory (s t : State) : Prop := t = { s with mem := t.mem, poisoned := t.poisoned, ports := t.ports }

namespace OnlyMemory

variable {s t u : State}

theorem refl (s : State) : s.OnlyMemory s := rfl

theorem trans (h : s.OnlyMemory t) (g : t.OnlyMemory u) : s.OnlyMemory u := by
  unfold OnlyMemory at h g ⊢
  rw [g, h]

theorem foldl {β : Type} {f : State → β → State} (h : ∀ x (t : State), t.OnlyMemory (f t x)) (xs : List β) (s : State) :
    s.OnlyMemory (xs.foldl f s) := by
  induction xs generalizing s with
  | nil => exact refl s
  | cons x xs ih => exact (h x s).trans (ih _)

theorem wrBytes (s : State) (a : Nat) (l : List Byte) : s.OnlyMemory (s.wrBytes a l) := by
  have h := foldl (fun (x : Byte × Nat) t => (rfl : t.OnlyMemory (t.wr (a + x.2) x.1))) l.zipIdx s
  unfold State.wrBytes
  generalize List.foldl _ s _ = v at h ⊢
  exact h.trans rfl

theorem wrNat (s : State) (a n v : Nat) : s.OnlyMemory (s.wrNat a n v) := wrBytes s a _

theorem touchAtomic (s : State) (a : Nat) : s.OnlyMemory (s.touchAtomic a) := by
  unfold OnlyMemory
  rw [touchAtomic_frame]

theorem armList (s : State) (e : ListEntry) : s.OnlyMemory (s.armList e) :=
  ((wrNat s _ _ _).trans (wrNat _ _ _ _)).trans (touchAtomic _ _)

theorem setLayerTable (s : State) (base : Nat) (l : List Nat) : s.OnlyMemory (s.setLayerTable base l) :=
  (wrBytes s _ _).trans (wrNat _ _ _ _)

theorem layerFirst (s : State) (j : Job) : s.OnlyMemory (s.layerFirst j) := by
  unfold State.layerFirst
  split
  · exact refl s
  · exact setLayerTable s _ _

theorem routeFirst (s : State) (r : Image) : s.OnlyMemory (s.routeFirst r) := by
  unfold State.routeFirst State.routeCheck
  refine (foldl (fun l t => ?_) _ s).trans (wrNat _ _ _ _)
  split
  · exact refl t
  · exact ((wrNat t _ _ _).trans (wrBytes _ _ _)).trans (wrBytes _ _ _)

end OnlyMemory

/-! ### The measurements -/

theorem putMeasurement_frame (s : State) (i : Nat) (d : List Byte) :
    s.putMeasurement i d = { s with sec := (s.putMeasurement i d).sec } := by
  unfold putMeasurement
  split <;> rfl

theorem appendLog_frame (s : State) (i : Nat) (e l : Bool) (d : List Byte) :
    s.appendLog i e l d = { s with sec := (s.appendLog i e l d).sec } := by
  unfold appendLog
  dsimp only
  split <;> rfl

theorem setMeasure_frame (s : State) (i : Nat) (l : Bool) (d : List Byte) :
    s.setMeasure i l d = { s with sec := (s.setMeasure i l d).sec } := by
  unfold setMeasure
  rw [appendLog_frame, putMeasurement_frame]

theorem extendMeasure_frame (s : State) (i : Nat) (l : Bool) (d : List Byte) :
    s.extendMeasure i l d = { s with sec := (s.extendMeasure i l d).sec } := by
  unfold extendMeasure
  rw [appendLog_frame, putMeasurement_frame]

theorem measureLaunch_frame (s : State) (b : Image) (p : Option Image) :
    s.measureLaunch b p = { s with sec := (s.measureLaunch b p).sec } := by
  unfold measureLaunch
  dsimp only
  rw [extendMeasure_frame, extendMeasure_frame, setMeasure_frame, setMeasure_frame]

/-! ### The stages of an acceptance -/

/-- The tables of a job at launch: its work lists armed, its layer formats and its routing state as at first use. -/
def prepareTables (s : State) (j : Job) : State := match j.route with
  | some r => ((j.lists.foldl armList s).layerFirst j).routeFirst r
  | none => (j.lists.foldl armList s).layerFirst j

end State

/-- The job with memory as it stands once its lists are armed. -/
def Job.armedIn (j : Job) (m : List Host.Cell) : Job := { j with armed := (List.range j.lists.length).map fun n => (n, m) }

namespace State

/-- Every tile of a list issues from the entry. -/
def startTiles (s : State) (l : List TileId) (g : W64) : State :=
  l.foldl (fun s p => s.modTile p fun t => t.atLaunch s.launch.entry g) s

/-- The tables prepared, the job noted with its lists armed, and its host tallies cleared. -/
def tabled (s : State) (j : Job) : State := prepareTables { s with job := some j } j
def tallied (s : State) (j : Job) : State := { s.tabled j with job := some (j.armedIn (s.tabled j).mem) }.clearHostTallies j

/-- A numbered launch of a job up to where the fabric or a restore goes on: then its tiles issue, and its steps begin. -/
def beginLaunch (s : State) (j : Job) : State :=
  ((s.tallied j).startTiles ((s.tallied j).setOf j) (gkeyOf j)).stepsAtLaunch j

/-- What goes on then: the join, or without a plan a restore. -/
def enterFabric (s : State) (plan : Option (Image × Bool)) : State := match plan with
  | some (p, c) => s.fabricAccept p c
  | none => s.restoreStart

/-- The plan that the launch selects. -/
@[irreducible] def launchPlan (s : State) : Option (Image × Bool) :=
  if Lpb.plan s.paramBlock = 0 then none else s.selectPlan (Lpb.plan s.paramBlock)

theorem launchPlan_none {s : State} (h : Lpb.plan s.paramBlock = 0) : s.launchPlan = none := by
  rw [launchPlan, if_pos h]

theorem launchPlan_some {s : State} (h : Lpb.plan s.paramBlock ≠ 0) : s.launchPlan = s.selectPlan (Lpb.plan s.paramBlock) := by
  rw [launchPlan, if_neg h]

/-- The registers cleared, the launch numbered and measured. -/
@[irreducible] def numbered (s : State) : State := s.clearForLaunch.measureLaunch s.paramBlock (s.launchPlan.map (·.1))

/-- The job of a launch as it is accepted. -/
@[irreducible] def acceptedJob (s : State) : Job := s.numbered.newJob s.paramBlock

/-- The launch begun: all of an acceptance but the join or the restore. -/
@[irreducible] def begun (s : State) : State := s.numbered.beginLaunch s.acceptedJob

theorem accept_eq (s : State) : s.accept = (s.begun.enterFabric s.launchPlan).checkDone := by
  unfold accept begun acceptedJob numbered launchPlan
  dsimp only
  generalize (if Lpb.plan s.paramBlock = 0 then none else s.selectPlan (Lpb.plan s.paramBlock)) = plan
  generalize s.clearForLaunch.measureLaunch s.paramBlock (plan.map (·.1)) = n
  generalize n.newJob s.paramBlock = j
  rfl

/-! ### The host tallies and the tiles -/

/-- The host tallies that an acceptance clears. -/
def clearedTallies (j : Job) : List (BitVec 6) := j.doneTally :: (match j.step with
  | some c => [StepCfg.arriveT c, StepCfg.releaseT c, StepCfg.vetoT c]
  | none => [])

theorem foldl_set_zero (l : List (BitVec 6)) (v : Vector W32 64) (k : BitVec 6) (h : k ∈ l ∨ v[k.toNat] = 0) :
    (l.foldl (fun v k => v.set k.toNat 0 (by omega)) v)[k.toNat] = 0 := by
  induction l generalizing v with
  | nil => exact h.resolve_left (by simp)
  | cons x l ih =>
    refine ih _ ?_
    by_cases e : x.toNat = k.toNat
    · exact .inr (by simp [e])
    · refine h.imp (fun m => (List.mem_cons.mp m).resolve_left fun c => e (by rw [c])) fun m => ?_
      rw [Vector.getElem_set_ne _ _ e, m]

theorem clearHostTallies_hostTally (s : State) {j : Job} {k : BitVec 6} (h : k ∈ clearedTallies j) :
    (s.clearHostTallies j).hostTally k = 0 := foldl_set_zero _ _ k (.inl h)

theorem startTiles_frame (s : State) (l : List TileId) (g : W64) : s.startTiles l g = { s with tiles := (s.startTiles l g).tiles } := by
  induction l generalizing s with
  | nil => rfl
  | cons p l ih => exact (ih _).trans rfl

/-- Starting a tile twice is starting it once. -/
theorem startTiles_tile {s : State} (w : Sparse.wf Tile.reset s.tiles = true) (l : List TileId) (g : W64) (p : TileId) :
    (s.startTiles l g).tile p = if p ∈ l then (s.tile p).atLaunch s.launch.entry g else s.tile p := by
  induction l generalizing s with
  | nil => rfl
  | cons q l ih =>
    have e : s.startTiles (q :: l) g = (s.modTile q fun t => t.atLaunch s.launch.entry g).startTiles l g := rfl
    have h := ih (s := s.modTile q fun t => t.atLaunch s.launch.entry g) (setTile_tiles_wf w q _)
    rw [e, h, tile_modTile w]
    by_cases hq : p = q
    · subst hq
      by_cases hl : p ∈ l
      · simp only [if_pos hl, if_true, List.mem_cons_self]
        rfl
      · simp [hl]
    · simp [hq]

/-! ### The steps of a new launch -/

theorem setHealthState_frame (s : State) (v : BitVec 3) : s.setHealthState v = { s with health := (s.setHealthState v).health } := by
  unfold setHealthState
  split <;> rfl

theorem stepsAtLaunch_frame (s : State) (j : Job) :
    s.stepsAtLaunch j = { s with steps := (s.stepsAtLaunch j).steps, health := (s.stepsAtLaunch j).health } := by
  unfold stepsAtLaunch
  split
  · rfl
  · dsimp only
    split
    · rw [setHealthState_frame]
    · split
      · rw [setHealthState_frame]
      · rfl

theorem stepsAtLaunch_none (s : State) {j : Job} (h : j.step = none) :
    (s.stepsAtLaunch j).steps.phase = .idle ∧ (s.stepsAtLaunch j).steps.t = 1 := by
  unfold stepsAtLaunch
  rw [h]
  exact ⟨rfl, rfl⟩

theorem stepsAtLaunch_some (s : State) {j : Job} {c : Image} (h : j.step = some c) :
    let x := (s.stepsAtLaunch j).steps
    x.t = BitVec.ofNat 32 (StepCfg.step0 c) ∧ x.a = 0 ∧ x.k = 0 ∧
      x.phase = (if StepCfg.restore c = true then .restoring else .stepping) ∧ x.digest = StepCfg.restore c ∧ x.nf = false := by
  unfold stepsAtLaunch
  rw [h]
  dsimp only
  split
  · rw [setHealthState_frame]
    exact ⟨rfl, rfl, rfl, rfl, rfl, rfl⟩
  · split
    · rw [setHealthState_frame]
      exact ⟨rfl, rfl, rfl, rfl, rfl, rfl⟩
    · exact ⟨rfl, rfl, rfl, rfl, rfl, rfl⟩

/-! ### What stands before the fabric acts -/

section Begun
variable (s : State) (j : Job)

theorem tabled_onlyMemory : OnlyMemory { s with job := some j } (s.tabled j) := by
  have h := (OnlyMemory.foldl (fun e t => OnlyMemory.armList t e) j.lists { s with job := some j }).trans (OnlyMemory.layerFirst _ j)
  unfold tabled prepareTables
  split
  · exact h.trans (OnlyMemory.routeFirst _ _)
  · exact h

theorem tallied_frame : s.tallied j = { s with
    mem := (s.tallied j).mem, poisoned := (s.tallied j).poisoned, ports := (s.tallied j).ports,
    job := some (j.armedIn (s.tabled j).mem), hostTallies := (s.tallied j).hostTallies } := by
  have h := s.tabled_onlyMemory j
  have e : s.tallied j = { s.tabled j with
    job := some (j.armedIn (s.tabled j).mem), hostTallies := (s.tallied j).hostTallies } := rfl
  rw [e]
  generalize s.tabled j = t at h ⊢
  rw [h]

theorem beginLaunch_frame : s.beginLaunch j = { s.tallied j with
    tiles := (s.beginLaunch j).tiles, steps := (s.beginLaunch j).steps, health := (s.beginLaunch j).health } := by
  unfold beginLaunch
  rw [stepsAtLaunch_frame, startTiles_frame]

theorem beginLaunch_job : ∃ m, (s.beginLaunch j).job = some (j.armedIn m) :=
  ⟨(s.tabled j).mem, by rw [beginLaunch_frame, tallied_frame]⟩
theorem beginLaunch_launch : (s.beginLaunch j).launch = s.launch := by rw [beginLaunch_frame, tallied_frame]
theorem beginLaunch_fabric : (s.beginLaunch j).fabric = s.fabric := by rw [beginLaunch_frame, tallied_frame]
theorem beginLaunch_light : (s.beginLaunch j).light = s.light := by rw [beginLaunch_frame, tallied_frame]

theorem beginLaunch_hostTally {k : BitVec 6} (h : k ∈ clearedTallies j) : (s.beginLaunch j).hostTally k = 0 := by
  rw [beginLaunch_frame]
  exact clearHostTallies_hostTally _ h

/-- The tiles of the set issue from the entry, and no other tile changes. -/
theorem beginLaunch_tile (w : Sparse.wf Tile.reset s.tiles = true) (p : TileId) :
    (s.beginLaunch j).tile p = if p ∈ s.setOf j then (s.tile p).atLaunch s.launch.entry (gkeyOf j) else s.tile p := by
  have hl : (s.tallied j).setOf j = s.setOf j := by rw [tallied_frame]; rfl
  have he : (s.tallied j).launch = s.launch := by rw [tallied_frame]
  have ht : (s.tallied j).tiles = s.tiles := by rw [tallied_frame]
  have hs : (s.beginLaunch j).tiles = ((s.tallied j).startTiles (s.setOf j) (gkeyOf j)).tiles := by
    unfold beginLaunch
    rw [stepsAtLaunch_frame, hl]
  rw [tile_congr hs, startTiles_tile (ht ▸ w), he, tile_congr ht]

end Begun

/-! ### The launch as it is numbered -/

section Numbered
variable (s : State)

theorem numbered_frame : s.numbered = { s.clearForLaunch with sec := s.numbered.sec } := by
  rw [numbered]
  exact measureLaunch_frame _ _ _

theorem numbered_launch : s.numbered.launch = s.clearForLaunch.launch := by rw [numbered_frame]
theorem numbered_fabric : s.numbered.fabric = s.clearForLaunch.fabric := by rw [numbered_frame]
theorem numbered_light : s.numbered.light = s.light := by rw [numbered_frame, clearForLaunch]
theorem numbered_l2p : s.numbered.l2p = s.l2p := by rw [numbered_frame, clearForLaunch]
theorem numbered_tiles : s.numbered.tiles = s.tiles := by rw [numbered_frame, clearForLaunch]
theorem numbered_rdBytes (a n : Nat) : s.numbered.rdBytes a n = s.rdBytes a n := by
  have hm : s.numbered.mem = s.mem := by rw [numbered_frame, clearForLaunch]
  have hp : s.numbered.poisoned = s.poisoned := by rw [numbered_frame, clearForLaunch]
  unfold rdBytes rd isPoisoned peek
  rw [hm, hp]

theorem newJob_step_none {b : Image} (h : Lpb.step b = 0) : (s.newJob b).step = none := by
  have e : (s.newJob b).step = s.imageAt (Lpb.step b) 360 := rfl
  rw [e, imageAt, if_pos h]

theorem newJob_step_some {b : Image} (h : Lpb.step b ≠ 0) : (s.newJob b).step = some (s.rdBytes (Lpb.step b) 360) := by
  have e : (s.newJob b).step = s.imageAt (Lpb.step b) 360 := rfl
  rw [e, imageAt, if_neg h]

theorem presentMask_congr {s t : State} (hp : t.fabric.peers = s.fabric.peers) (hm : t.fabric.map = s.fabric.map)
    (hl : t.light = s.light) (p : Image) (lo hi : Nat) : t.presentMask p lo hi = s.presentMask p lo hi := by
  have hf : ∀ f, t.fprPresent f = s.fprPresent f := fun f => by
    unfold fprPresent isUp pair pairsOf peerOf pairsTo mapEntry
    rw [hp, hm, hl]
  simp only [presentMask, hf]

end Numbered

end State

end Sys2Proof.Machine
end

section
/-!
PROOFS. An accepted launch (R145, R146), and the launch from START to IDLE as a whole.
-/
namespace Sys2Proof.Machine

theorem LaunchRegs.fields_of_steady {l m : LaunchRegs} (h : l.steady = m.steady) :
    l.run = m.run ∧ l.refuse = m.refuse ∧ l.endCode = m.endCode ∧ l.seq = m.seq := by
  simp only [LaunchRegs.steady, LaunchRegs.mk.injEq] at h
  obtain ⟨hr, -, hf, he, -, -, -, -, -, -, -, -, -, -, -, -, -, -, hs, -⟩ := h
  exact ⟨hr, hf, he, hs⟩

theorem Steps.fields_of_steady {x y : Steps} (h : x.steady = y.steady) :
    x.t = y.t ∧ x.a = y.a ∧ x.k = y.k ∧ x.phase = y.phase ∧ x.nf = y.nf ∧ x.digest = y.digest := by
  simp only [Steps.steady, Steps.mk.injEq] at h
  obtain ⟨ht, ha, hk, hp, hn, -, hd, -⟩ := h
  exact ⟨ht, ha, hk, hp, hn, hd⟩

namespace State

/-! ### The state in which the fabric or a restore goes on -/

section Begun
variable (s : State)

theorem begun_job : ∃ m, s.begun.job = some (s.acceptedJob.armedIn m) := by
  rw [begun]
  exact beginLaunch_job _ _

theorem begun_launch : s.begun.launch = s.clearForLaunch.launch := by
  rw [begun, beginLaunch_launch, numbered_launch]

theorem begun_fabric : s.begun.fabric = s.clearForLaunch.fabric := by
  rw [begun, beginLaunch_fabric, numbered_fabric]

theorem begun_light : s.begun.light = s.light := by
  rw [begun, beginLaunch_light, numbered_light]

theorem begun_newJoin (p : Image) (c : Bool) : s.begun.newJoin p c = s.newJoin p c := by
  have hp : s.begun.fabric.peers = s.fabric.peers := by rw [begun_fabric, clearForLaunch]
  have hm : s.begun.fabric.map = s.fabric.map := by rw [begun_fabric, clearForLaunch]
  unfold newJoin
  rw [presentMask_congr hp hm (begun_light s), presentMask_congr hp hm (begun_light s)]

theorem acceptedJob_fields : s.acceptedJob.first = s.launch.first.toNat ∧ s.acceptedJob.count = s.launch.count.toNat ∧
    s.acceptedJob.doneTally = s.launch.doneTally ∧ s.acceptedJob.jobtag = Lpb.jobtag s.paramBlock := by
  have hl := numbered_launch s
  rw [acceptedJob]
  generalize s.numbered = n at hl ⊢
  rw [newJob, hl, clearForLaunch]
  exact ⟨rfl, rfl, rfl, rfl⟩

theorem acceptedJob_step_none (h : Lpb.step s.paramBlock = 0) : s.acceptedJob.step = none := by
  rw [acceptedJob, newJob_step_none _ h]

theorem acceptedJob_step_some (h : Lpb.step s.paramBlock ≠ 0) :
    s.acceptedJob.step = some (s.rdBytes (Lpb.step s.paramBlock) 360) := by
  rw [acceptedJob, newJob_step_some _ h, numbered_rdBytes]

/-- The tiles of the set issue from the entry, and no other tile changes. -/
theorem begun_tile (w : Sparse.wf Tile.reset s.tiles = true) (p : TileId) :
    s.begun.tile p = if p ∈ (s.l2p.drop s.launch.first.toNat).take s.launch.count.toNat then
      (s.tile p).atLaunch s.launch.entry (gkeyOf s.acceptedJob) else s.tile p := by
  have ht := numbered_tiles s
  have he : s.numbered.launch.entry = s.launch.entry := by rw [numbered_launch, clearForLaunch]
  have hs : s.numbered.setOf s.acceptedJob = (s.l2p.drop s.launch.first.toNat).take s.launch.count.toNat := by
    obtain ⟨hf, hc, -⟩ := acceptedJob_fields s
    rw [setOf, numbered_l2p, hf, hc]
  rw [begun, beginLaunch_tile _ _ (ht ▸ w), hs, he, tile_congr ht]

theorem begun_hostTally {k : BitVec 6} (h : k ∈ clearedTallies s.acceptedJob) : s.begun.hostTally k = 0 := by
  rw [begun]
  exact beginLaunch_hostTally _ _ h

theorem begun_doneTally : s.begun.hostTally s.launch.doneTally = 0 := by
  obtain ⟨-, -, e, -⟩ := acceptedJob_fields s
  exact begun_hostTally s (e ▸ List.mem_cons_self)

theorem begun_stepTallies {c : Image} (h : s.acceptedJob.step = some c) {k : BitVec 6}
    (hk : k ∈ [StepCfg.arriveT c, StepCfg.releaseT c, StepCfg.vetoT c]) : s.begun.hostTally k = 0 := by
  refine begun_hostTally s (List.mem_cons_of_mem _ ?_)
  rw [h]
  exact hk

theorem begun_steps_none (h : s.acceptedJob.step = none) : s.begun.steps.phase = .idle ∧ s.begun.steps.t = 1 := by
  rw [begun]
  exact stepsAtLaunch_none _ h

theorem begun_steps_some {c : Image} (h : s.acceptedJob.step = some c) :
    s.begun.steps.t = BitVec.ofNat 32 (StepCfg.step0 c) ∧ s.begun.steps.a = 0 ∧ s.begun.steps.k = 0 ∧
      s.begun.steps.phase = (if StepCfg.restore c = true then .restoring else .stepping) ∧
      s.begun.steps.digest = StepCfg.restore c ∧ s.begun.steps.nf = false := by
  rw [begun]
  exact stepsAtLaunch_some _ h

end Begun

/-! ### What the fabric or a restore leaves of it -/

theorem restoreStart_of_not_restoring {s : State} (h : s.steps.phase ≠ .restoring) : s.restoreStart = s := by
  unfold restoreStart
  split
  · rfl
  · rw [if_pos (.inl h)]

theorem checkDone_frame (s : State) : s.checkDone.launch.st = s.launch.st ∧ s.checkDone.fabric = s.fabric ∧ s.checkDone.tiles = s.tiles := by
  unfold checkDone
  split
  · split <;> exact ⟨rfl, rfl, rfl⟩
  · exact ⟨rfl, rfl, rfl⟩

section Enter
variable (u : State)

/-- With a plan or without, a launch that has begun keeps its job, its host tallies, its registers and its steps. -/
theorem enterFabric_keeps (plan : Option (Image × Bool)) :
    let t := (u.enterFabric plan).checkDone
    t.job = u.job ∧ t.hostTallies = u.hostTallies ∧ t.launch.steady = u.launch.steady ∧ t.steps.steady = u.steps.steady := by
  have core : ((u.enterFabric plan).checkDone).launchCore = u.launchCore ∨
      ∃ p c, ((u.enterFabric plan).checkDone).launchCore = (u.joinEntered p c).launchCore := match plan with
    | none => .inl ((KeepsLaunch.restoreStart u).trans (.checkDone _)).core
    | some (p, c) => .inr ⟨p, c, ((fabricAccept_keeps u p c).trans (.checkDone _)).core⟩
  simp only [launchCore, LaunchCore.mk.injEq] at core
  rcases core with ⟨hj, ht, hl, hs, -⟩ | ⟨p, c, hj, ht, hl, hs, -⟩
  · exact ⟨hj, ht, hl, hs⟩
  · exact ⟨hj, ht, hl, hs⟩

theorem enterFabric_of_not_restoring {u : State} (h : u.steps.phase ≠ .restoring) : u.enterFabric none = u :=
  restoreStart_of_not_restoring h

/-- With a plan the fabric holds the launch, without a message or a collective of another. -/
theorem enterFabric_joins (p : Image) (c : Bool) :
    let t := (u.enterFabric (some (p, c))).checkDone
    ∃ k, t.fabric.job = some k ∧ k.accepted = u.newJoin p c ∧ t.fabric.groupCtr = Vector.replicate 16 0 ∧
      t.fabric.colls = [] ∧ t.fabric.heldJoins = [] ∧ t.fabric.heldConfirms = [] := by
  have keeps : (u.joinEntered p c).KeepsLaunch (u.enterFabric (some (p, c))).checkDone := (fabricAccept_keeps u p c).trans (.checkDone _)
  have core := keeps.core
  simp only [launchCore, LaunchCore.mk.injEq] at core
  obtain ⟨-, -, -, -, hj, hg, hh, hc⟩ := core
  obtain ⟨k, hk, e⟩ := Option.map_eq_some_iff.mp hj
  exact ⟨k, hk, e, hg, (keeps.quiet ⟨rfl, rfl⟩).2, hh, hc⟩

/-- A launch whose plan has another member present waits for it: nothing but its JOINs goes out. -/
theorem enterFabric_waits {p : Image} {c : Bool} (hj : ∀ m ∈ u.fabric.heldJoins, m.jobtag ≠ u.ownTag)
    (hc : ∀ m ∈ u.fabric.heldConfirms, m.jobtag ≠ u.ownTag)
    (ho : ∃ r ∈ maskRanks (u.newJoin p c).present, r ≠ (u.newJoin p c).rank) :
    let t := (u.enterFabric (some (p, c))).checkDone
    t.launch.st = u.launch.st ∧ ∀ k, t.fabric.job = some k → k.j = none ∧ k.joined = false := by
  have e : u.enterFabric (some (p, c)) = u.joinsSent p c := fabricAccept_waits hj hc ho
  have sends : (u.joinEntered p c).Sends (u.joinsSent p c) := Sends.sendJoinTo _ _ _ _
  obtain ⟨hst, hf, -⟩ := checkDone_frame (u.joinsSent p c)
  dsimp only
  rw [e, hst, hf, sends.launch]
  refine ⟨rfl, fun k hk => ?_⟩
  obtain ⟨k', hk', eq⟩ := sends.join_some (k := u.newJoin p c) rfl
  obtain rfl : k' = k := Option.some.inj (hk'.symm.trans hk)
  obtain ⟨-, -, -, hn, hd⟩ := Join.fields_of_unsent eq
  exact ⟨hn, hd⟩

end Enter

section Accept
variable (s : State)

theorem accept_job : ∃ m, s.accept.job = some (s.acceptedJob.armedIn m) := by
  obtain ⟨hj, -⟩ := enterFabric_keeps s.begun s.launchPlan
  rw [accept_eq, hj]
  exact begun_job s

theorem accept_hostTally (k : BitVec 6) : s.accept.hostTally k = s.begun.hostTally k := by
  obtain ⟨-, ht, -⟩ := enterFabric_keeps s.begun s.launchPlan
  rw [accept_eq, hostTally, hostTally]
  simp only [ht]

theorem accept_registers : s.accept.launch.run = s.launch.run ∧ s.accept.launch.refuse = 0 ∧ s.accept.launch.endCode = 0 ∧
    s.accept.launch.seq = s.launch.seq + 1 := by
  obtain ⟨-, -, hl, -⟩ := enterFabric_keeps s.begun s.launchPlan
  obtain ⟨hr, hf, he, hs⟩ := LaunchRegs.fields_of_steady hl
  rw [accept_eq, hr, hf, he, hs, begun_launch, clearForLaunch]
  exact ⟨rfl, rfl, rfl, rfl⟩

/-- Without a step configuration the steps rest at 1. -/
theorem accept_without_steps (h : Lpb.step s.paramBlock = 0) : s.accept.steps.phase = .idle ∧ s.accept.steps.t = 1 := by
  obtain ⟨-, -, -, hs⟩ := enterFabric_keeps s.begun s.launchPlan
  obtain ⟨ht, -, -, hp, -⟩ := Steps.fields_of_steady hs
  rw [accept_eq, ht, hp]
  exact begun_steps_none s (acceptedJob_step_none s h)

theorem accept_with_steps {c : Image} (h : s.acceptedJob.step = some c) :
    s.accept.steps.t = BitVec.ofNat 32 (StepCfg.step0 c) ∧ s.accept.steps.a = 0 ∧ s.accept.steps.k = 0 ∧
      s.accept.steps.phase = (if StepCfg.restore c = true then .restoring else .stepping) ∧
      s.accept.steps.digest = StepCfg.restore c ∧ s.accept.steps.nf = false := by
  obtain ⟨-, -, -, hs⟩ := enterFabric_keeps s.begun s.launchPlan
  obtain ⟨ht, ha, hk, hp, hn, hd⟩ := Steps.fields_of_steady hs
  rw [accept_eq, ht, ha, hk, hp, hn, hd]
  exact begun_steps_some s h

theorem begun_not_restoring (hr : Lpb.step s.paramBlock = 0 ∨ StepCfg.restore (s.rdBytes (Lpb.step s.paramBlock) 360) = false) :
    s.begun.steps.phase ≠ .restoring := by
  by_cases h : Lpb.step s.paramBlock = 0
  · obtain ⟨e, -⟩ := begun_steps_none s (acceptedJob_step_none s h)
    rw [e]
    decide
  · obtain ⟨-, -, -, e, -⟩ := begun_steps_some s (acceptedJob_step_some s h)
    rw [e, hr.resolve_left h]
    decide

/-- Without a plan or a restore the tiles of the set issue, and the launch runs. -/
theorem accept_starts (w : Sparse.wf Tile.reset s.tiles = true) (hp : Lpb.plan s.paramBlock = 0)
    (hr : Lpb.step s.paramBlock = 0 ∨ StepCfg.restore (s.rdBytes (Lpb.step s.paramBlock) 360) = false) :
    s.accept.launch.st = 2 ∧ s.accept.fabric.job = s.fabric.job ∧ ∀ p, s.accept.tile p =
      if p ∈ (s.l2p.drop s.launch.first.toNat).take s.launch.count.toNat then
        (s.tile p).atLaunch s.launch.entry (gkeyOf s.acceptedJob) else s.tile p := by
  obtain ⟨hst, hf, ht⟩ := checkDone_frame s.begun
  rw [accept_eq, launchPlan_none hp, enterFabric_of_not_restoring (begun_not_restoring s hr), hst, hf, begun_launch, begun_fabric,
    clearForLaunch]
  exact ⟨rfl, rfl, fun p => (tile_congr ht p).trans (begun_tile s w p)⟩

theorem accept_joins {p : Image} {c : Bool} (h : s.launchPlan = some (p, c)) :
    ∃ k, s.accept.fabric.job = some k ∧ k.accepted = s.newJoin p c ∧ s.accept.fabric.groupCtr = Vector.replicate 16 0 ∧
      s.accept.fabric.colls = [] ∧ s.accept.fabric.heldJoins = [] ∧ s.accept.fabric.heldConfirms = [] := by
  rw [accept_eq, h, ← begun_newJoin]
  exact enterFabric_joins _ p c

theorem accept_waits {p : Image} {c : Bool} (h : s.launchPlan = some (p, c))
    (hj : ∀ m ∈ s.fabric.heldJoins, m.jobtag ≠ Lpb.jobtag s.paramBlock)
    (hc : ∀ m ∈ s.fabric.heldConfirms, m.jobtag ≠ Lpb.jobtag s.paramBlock)
    (ho : ∃ r ∈ maskRanks (s.newJoin p c).present, r ≠ (s.newJoin p c).rank) :
    s.accept.launch.st = 2 ∧ ∀ k, s.accept.fabric.job = some k → k.j = none ∧ k.joined = false := by
  have tag : s.begun.ownTag = Lpb.jobtag s.paramBlock := by
    obtain ⟨m, hm⟩ := begun_job s
    obtain ⟨-, -, -, e⟩ := acceptedJob_fields s
    rw [ownTag, hm, ← e]
    rfl
  have hst : s.begun.launch.st = 2 := by rw [begun_launch, clearForLaunch]
  have heldJ : s.begun.fabric.heldJoins = s.fabric.heldJoins := by rw [begun_fabric, clearForLaunch]
  have heldC : s.begun.fabric.heldConfirms = s.fabric.heldConfirms := by rw [begun_fabric, clearForLaunch]
  rw [← tag] at hj hc
  rw [← heldJ] at hj
  rw [← heldC] at hc
  rw [← begun_newJoin] at ho
  rw [accept_eq, h, ← hst]
  exact enterFabric_waits s.begun hj hc ho

end Accept

/-- The check of code 0x09. -/
theorem planCheck_mem (s : State) : (⟨0x09, if Lpb.plan s.paramBlock = 0 then [] else s.planReads (Lpb.plan s.paramBlock),
    Lpb.plan s.paramBlock == 0 || (s.planRefusal (Lpb.plan s.paramBlock)).isNone⟩ : LaunchCheck) ∈ s.launchChecks := by
  unfold launchChecks
  generalize s.paramBlock = b
  exact List.mem_of_getElem? (i := 8) rfl

/-- The plan check passes only where a copy of the plan is in order (R325). -/
theorem selectPlan_of_checks {s : State} (h : ∀ c ∈ s.launchChecks, c.ok = true) (hp : Lpb.plan s.paramBlock ≠ 0) :
    ∃ p c, s.selectPlan (Lpb.plan s.paramBlock) = some (p, c) := by
  have ok := h _ s.planCheck_mem
  dsimp only at ok
  cases e : s.selectPlan (Lpb.plan s.paramBlock) with
  | none => simp [planRefusal, e, hp] at ok
  | some x => exact ⟨x.1, x.2, rfl⟩

end State

/-- Settles O49: START and CANCEL by what they write, the checks by the first that fails, an acceptance by its stages and by what a
launch holds to afterwards, and the return to IDLE by the tiles at rest. -/
theorem launchesStartAndEnd : Obligations.LaunchesStartAndEnd := by
  intro s b inv hp pow
  refine ⟨start_and_cancel_at_rest pow b, fun run => ?_, fun run hst => ⟨fun c hc => ?_, fun ok => ?_⟩, fun active => ⟨?_, fun rest => ?_⟩⟩
  · obtain ⟨alone, both, same⟩ := start_while_running pow run
    exact ⟨alone, both, same, cancel_while_checking pow run, cancel_while_active pow inv.tiles run⟩
  · obtain ⟨hl, ht, hm, hj⟩ := s.refuse_frame c.code
    exact ⟨_, launchChecks_refuse run hst hp hc, hl, ht, hm, hj⟩
  · obtain ⟨m, hjob⟩ := s.accept_job
    obtain ⟨hfirst, hcount, -, htag⟩ := s.acceptedJob_fields
    obtain ⟨hrun, hrefuse, hend, hseq⟩ := s.accept_registers
    refine ⟨s.accept, s.acceptedJob.armedIn m, launchChecks_accept run hst hp ok, hjob, hfirst, hcount, htag,
      hrun.trans run, hrefuse, hend, hseq, (s.accept_hostTally _).trans s.begun_doneTally, s.accept_starts inv.tiles,
      fun h => ⟨s.acceptedJob_step_none h, s.accept_without_steps h⟩, fun h => ?_, fun h => ?_⟩
    · have hstep := s.acceptedJob_step_some h
      obtain ⟨ht, ha, hk, hph, hd, hn⟩ := s.accept_with_steps hstep
      exact ⟨hstep, ht, ha, hk, hph, hd, hn, fun k hk => (s.accept_hostTally k).trans (s.begun_stepTallies hstep hk)⟩
    · obtain ⟨p, c, hsel⟩ := State.selectPlan_of_checks ok h
      have hplan : s.launchPlan = some (p, c) := (State.launchPlan_some h).trans hsel
      obtain ⟨k, hk, e, hg, hc, hj, hf⟩ := s.accept_joins hplan
      obtain ⟨ep, ec, er, em, el⟩ := Join.fields_of_accepted (j := k) (k := s.newJoin p c) e
      refine ⟨p, c, k, hsel, hk, ep, ec, er, em, el, hg, hc, hj, hf, fun hj hc ho => ?_⟩
      rw [em, er] at ho
      obtain ⟨hst, hwait⟩ := s.accept_waits hplan hj hc ho
      exact ⟨hst, hwait k hk⟩
  · exact launchIdle_waits
  · refine ⟨fun hst hc => ?_, launchIdle_completes active rest, launchIdle_ends active rest⟩
    rw [execLaunchIdle_at_rest active rest, if_pos hst, if_neg (by simp [hc])]

end Sys2Proof.Machine
end
